-- ==== Sys2Proof/Word.lean ====
section
/-! DEFINITION. Bytes, byte sequences of the three fixed lengths, and the output record (spec 00_scope R8,
10_state R11, R14, R18). -/

namespace Sys2Proof

/-- A byte: an unsigned integer 0..255 (R8). -/
abbrev Byte := BitVec 8

/-- The sixteen bytes of a wire packet, in stream order: `C[0]` .. `C[15]` (R8, R14). -/
abbrev Packet := Vector Byte 16

/-- The thirty-two bytes of a full window: `WIN[0]` .. `WIN[31]` (R11). -/
abbrev Window := Vector Byte 32

/-- The bytes one READ returned (the source's RawChunk): never more than 32 (R11, R12, R37). `WLEN` is the
length and `WIN[k]` is `bytes[k]`; past the length `WIN[k]` holds no value (R22). -/
structure RawChunk where
  bytes : List Byte
  length_le : bytes.length ≤ 32
  deriving DecidableEq, Repr

/-- The output record (R18): six unsigned fields, 96 bits in all. -/
structure Measurement where
  id : BitVec 8
  systemTimeMs : BitVec 32
  distanceMm : BitVec 24
  signalStatus : BitVec 8
  signalStrength : BitVec 16
  signalAccuracy : BitVec 8
  deriving DecidableEq, Repr

end Sys2Proof
end

