-- ==== Sys2Proof/Config.lean ====
section
/-! DEFINITION. The configuration constants of 00_scope R6 (10_state R19: hardwired, the same before reset, at
reset and ever after) and the free values: what the environment draws and the spec does not fix. -/

namespace Sys2Proof

/-- The six fields of a packet, in the order of `FIELD_LAYOUT` (30_encoding R52). -/
inductive Field where
  | id
  | systemTimeMs
  | distanceMm
  | signalStatus
  | signalStrength
  | signalAccuracy
  deriving DecidableEq, Repr

/-- How the Reader answers one READ (R36, R40): `k` bytes, 0 ≤ k ≤ 32, or a transport failure. -/
inductive ReadAnswer where
  | bytes (k : Fin 33)
  | failure
  deriving DecidableEq, Repr, Inhabited

/-- How the transport answers one FLUSH (R42): done, after `late` further bytes arrived (so that
`m = len(RXQ)` counts them too), or a transport failure. -/
inductive FlushAnswer where
  | done (late : Nat)
  | failure
  deriving DecidableEq, Repr, Inhabited

namespace Config

/-- `BYTE_BITS` (R6). -/
abbrev byteBits : Nat := 8

/-- `H0`, the first byte of `SYNC_HEADER` (R6, R51). -/
abbrev h0 : Byte := 0x57#8

/-- `H1`, the second byte of `SYNC_HEADER` (R6, R51). -/
abbrev h1 : Byte := 0x00#8

/-- `H2`, the third byte of `SYNC_HEADER` (R6, R51). -/
abbrev h2 : Byte := 0xFF#8

/-- `HEADER_LENGTH` (R6). -/
abbrev headerLength : Nat := 3

/-- `PACKET_LENGTH` (R6). -/
abbrev packetLength : Nat := 16

/-- `WINDOW_LENGTH` = 2 x `PACKET_LENGTH` (R6). -/
abbrev windowLength : Nat := 32

/-- `POST_HEADER_LENGTH` = `PACKET_LENGTH` - `HEADER_LENGTH` (R6). -/
abbrev postHeaderLength : Nat := 13

/-- `CHECKSUM_OFFSET` = `PACKET_LENGTH` - 1 (R6). -/
abbrev checksumOffset : Nat := 15

/-- `CHECKSUM_MODULUS` (R6). -/
abbrev checksumModulus : Nat := 256

/-- `READ_TIMEOUT`, in units of `timeUnit` (R6). -/
abbrev readTimeout : Nat := 3

/-- `BAUD` (R6); no rule depends on it (R7). -/
abbrev baud : Nat := 115200

/-- `FIELD_LAYOUT`, the width column in bytes (R52, R95). -/
def fieldWidth : Field → Nat
  | .id => 1
  | .systemTimeMs => 4
  | .distanceMm => 3
  | .signalStatus => 1
  | .signalStrength => 2
  | .signalAccuracy => 1

/-- `FIELD_LAYOUT`, the `PAYLOAD` offset column (R52, R95). -/
def fieldOffset : Field → Nat
  | .id => 0
  | .systemTimeMs => 1
  | .distanceMm => 5
  | .signalStatus => 8
  | .signalStrength => 9
  | .signalAccuracy => 11

/-- `FIELD_LAYOUT`, all six rows in order (R52). -/
def fieldLayout : List Field :=
  [.id, .systemTimeMs, .distanceMm, .signalStatus, .signalStrength, .signalAccuracy]

/-- `TIME_UNIT`: the open parameter (R7, decision D15, U7). No rule depends on it. -/
opaque timeUnit : Nat

/-- FREE VALUE (U10): byte `n` of `STREAM`, for the bytes that State does not list. Log 3. -/
opaque streamByte : Nat → Byte

/-- FREE VALUE (U4, U6): the Reader's answer to a READ, at draw `n`, once no answer is queued. Log 2. -/
opaque readAnswer : Nat → ReadAnswer

/-- FREE VALUE (U5, U6): the transport's answer to a FLUSH, at draw `n`, once no answer is queued. Log 2. -/
opaque flushAnswer : Nat → FlushAnswer

/-- FREE VALUE (R40): how far `POS` has moved when a READ failed, at draw `n`: `POS` "is unspecified from then
on". Log 8. -/
opaque posAfterFailure : Nat → Nat

end Config
end Sys2Proof
end

