-- ==== Sys2Proof/Syntax.lean ====
section
/-! DEFINITION. The operations of 00_scope R5, one constructor per row of opcode_table.json, and their operand
forms. -/

namespace Sys2Proof

/-- Where LOCATE and FRAME take their window from. -/
inductive WinSrc where
  /-- the registers `WIN` and `WLEN`, as in the pipeline (R70, R111) -/
  | regs
  /-- the inputs of the combinational use: `WLEN` (6 bits) and the window's 32 bytes (R120, last paragraph) -/
  | pins (wlen : BitVec 6) (win : Window)
  deriving DecidableEq, Repr

/-- Where CHKSUM, EXT.* and DECODE take their packet from. -/
inductive PktSrc where
  /-- the register `CAND`, as in the pipeline (R85, R96 to R102) -/
  | cand
  /-- a packet word of format P16 (R61): the bits the row's pattern is over -/
  | word (c : Packet)
  deriving DecidableEq, Repr

/-- The operations (R5), in the row order of opcode_table.json. -/
inductive Instr where
  /-- ITER, one pass of the Consumer Loop (R115) -/
  | iter
  /-- READ, the transaction SRC.read(32) (R36) -/
  | read
  /-- LOCATE, the Frame Locator (R70) -/
  | locate (src : WinSrc)
  /-- FRAME, LOCATE then CHKSUM then DECODE (R111) -/
  | frame (src : WinSrc)
  /-- CHKSUM, the checksum of one candidate (R85) -/
  | chksum (src : PktSrc)
  /-- DECODE16, the source's `decode(B)` on any 16 bytes (R110) -/
  | decode16 (b : Packet)
  /-- EXT.ID (R96) -/
  | extId (src : PktSrc)
  /-- EXT.TIME (R97) -/
  | extTime (src : PktSrc)
  /-- EXT.DIST (R98) -/
  | extDist (src : PktSrc)
  /-- EXT.STATUS (R99) -/
  | extStatus (src : PktSrc)
  /-- EXT.STRENGTH (R100) -/
  | extStrength (src : PktSrc)
  /-- EXT.ACC (R101) -/
  | extAcc (src : PktSrc)
  /-- DECODE, all six extractions (R102) -/
  | decode (src : PktSrc)
  /-- EMIT, the transaction SINK.emit(MEAS) (R113) -/
  | emit
  /-- DIAG, the transaction DIAG(STATUS, info) (R114) -/
  | diag
  /-- FLUSH, the transaction SRC.flush (R42) -/
  | flush
  deriving DecidableEq, Repr

end Sys2Proof
end

