-- ==== Sys2Proof/WellFormed.lean ====
section
/-! DEFINITION. The checks an operation's operands must pass before it is an operation of this hardware. -/

namespace Sys2Proof

/-- The packet's first three bytes are the sync header: the fixed bits of format P16 (R51, R52). -/
def Packet.hasHeader (p : Packet) : Bool :=
  p[0] == Config.h0 && p[1] == Config.h1 && p[2] == Config.h2

/-- A window longer than 32 bytes cannot occur, and an interface that could present one must refuse it
(R37, R169, decision D7). -/
def WinSrc.wf : WinSrc → Bool
  | .regs => true
  | .pins wlen _ => decide (wlen.toNat ≤ Config.windowLength)

/-- A row of format P16 applies to a word only where the word's fixed bits match (R61). -/
def PktSrc.wf : PktSrc → Bool
  | .cand => true
  | .word c => Packet.hasHeader c

/-- Every operation's operand check. DECODE16 takes any 16 bytes (R110). -/
def Instr.wf : Instr → Bool
  | .iter => true
  | .read => true
  | .locate src => src.wf
  | .frame src => src.wf
  | .chksum src => src.wf
  | .decode16 _ => true
  | .extId src => src.wf
  | .extTime src => src.wf
  | .extDist src => src.wf
  | .extStatus src => src.wf
  | .extStrength src => src.wf
  | .extAcc src => src.wf
  | .decode src => src.wf
  | .emit => true
  | .diag => true
  | .flush => true

end Sys2Proof
end

