-- ==== Sys2Proof/Decode.lean ====
section
/-! DEFINITION. From the bytes of a request to an operation, total and rejecting by name; then the encoder; then
the words of opcode_table.json. No bit pattern of the spec selects an operation (R61), so the formats H3 and P16 are
told apart by their lengths (R56: 3 bytes, R50: 16 bytes) and the stages by a selector byte, the model's own
(DESIGN CHOICE, log 1). -/

namespace Sys2Proof

/-- Why some bytes are no request. -/
inductive DecodeError where
  /-- the selector byte names no operation of that format -/
  | noOperation (sel : Byte)
  /-- no format has that many bytes (U12: `decode(B)` on other than 16 bytes is refused) -/
  | badLength (n : Nat)
  /-- the fixed bits of H3 or P16 do not match (R51, R61) -/
  | notHeader
  /-- `WLEN` over 32 (U11, decision D7) -/
  | windowTooLong (n : Nat)
  deriving DecidableEq, Repr

/-- The operation a selector (the row's place in opcode_table.json, counted from 0, log 1) names on the whole window (format W32, and LOCATE's window form). -/
def windowRow (sel : Byte) (src : WinSrc) : Except DecodeError Instr :=
  match sel.toNat with
  | 2 => .ok (.locate src)
  | 3 => .ok (.frame src)
  | _ => .error (.noOperation sel)

/-- The stage a selector names among the P16 rows that work on a candidate. -/
def packetRow (sel : Byte) (src : PktSrc) : Except DecodeError Instr :=
  match sel.toNat with
  | 4 => .ok (.chksum src)
  | 6 => .ok (.extId src)
  | 7 => .ok (.extTime src)
  | 8 => .ok (.extDist src)
  | 9 => .ok (.extStatus src)
  | 10 => .ok (.extStrength src)
  | 11 => .ok (.extAcc src)
  | 12 => .ok (.decode src)
  | _ => .error (.noOperation sel)

/-- The operation a selector names on the registers (rows whose mask is zero, and the stages on `CAND`). -/
def registerRow (sel : Byte) : Except DecodeError Instr :=
  match sel.toNat with
  | 0 => .ok .iter
  | 1 => .ok .read
  | 3 => .ok (.frame .regs)
  | 13 => .ok .emit
  | 14 => .ok .diag
  | 15 => .ok .flush
  | _ => packetRow sel .cand

/-- The first sixteen bytes of a list, as a packet, where there are sixteen. -/
def packetOf? (bs : List Byte) : Option Packet :=
  if h : (bs.take 16).length = 16 then some ⟨(bs.take 16).toArray, by simpa using h⟩ else none

/-- The first thirty-two bytes of a list, as a window, where there are thirty-two. -/
def windowOf? (bs : List Byte) : Option Window :=
  if h : (bs.take 32).length = 32 then some ⟨(bs.take 32).toArray, by simpa using h⟩ else none

/-- Format H3 (R56): exactly the three header bytes, all 24 bits compared. -/
def decodeH3 (a b c : Byte) : Except DecodeError Instr :=
  if a = Config.h0 ∧ b = Config.h1 ∧ c = Config.h2 then .ok (.locate .regs) else .error .notHeader

/-- A packet word and a selector: the row's fixed bits must match (R61). -/
def decodeP16 (sel : Byte) (c : Packet) : Except DecodeError Instr :=
  if Packet.hasHeader c then packetRow sel (.word c) else .error .notHeader

/-- Thirty-two window bytes, `WLEN` and a selector (R120); `WLEN` over 32 is refused (D7). -/
def decodeW32 (wlen sel : Byte) (w : Window) : Except DecodeError Instr :=
  if wlen.toNat ≤ Config.windowLength then windowRow sel (.pins (wlen.truncate 6) w)
  else .error (.windowTooLong wlen.toNat)

/-- The decoder. 1 byte: a selector; 3: H3; 16: P16, DECODE16 on those bytes; 17: P16 and a selector; 34: a window,
`WLEN` and a selector. -/
def decode (bs : List Byte) : Except DecodeError Instr :=
  match bs with
  | [sel] => registerRow sel
  | [a, b, c] => decodeH3 a b c
  | _ =>
    if bs.length = 16 then
      match packetOf? bs with
      | some c => .ok (.decode16 c)
      | none => .error (.badLength bs.length)
    else if bs.length = 17 then
      match packetOf? bs, bs[16]? with
      | some c, some sel => decodeP16 sel c
      | _, _ => .error (.badLength bs.length)
    else if bs.length = 34 then
      match windowOf? bs, bs[32]?, bs[33]? with
      | some w, some wlen, some sel => decodeW32 wlen sel w
      | _, _, _ => .error (.badLength bs.length)
    else .error (.badLength bs.length)

/-- The bytes of a stage operation: its selector alone, or its packet word and the selector. -/
def encodePkt (sel : Byte) : PktSrc → List Byte
  | .cand => [sel]
  | .word c => c.toList ++ [sel]

/-- The bytes of a window's direct form: the 32 bytes, `WLEN`, the selector. -/
def encodePins (sel : Byte) (wlen : BitVec 6) (w : Window) : List Byte :=
  w.toList ++ [wlen.zeroExtend 8, sel]

/-- The encoder: the bytes of an operation, from the formats H3 and P16 and the selectors. -/
def encode : Instr → List Byte
  | .iter => [0#8]
  | .read => [1#8]
  | .locate .regs => [Config.h0, Config.h1, Config.h2]
  | .locate (.pins wlen w) => encodePins 2#8 wlen w
  | .frame .regs => [3#8]
  | .frame (.pins wlen w) => encodePins 3#8 wlen w
  | .chksum src => encodePkt 4#8 src
  | .decode16 b => b.toList
  | .extId src => encodePkt 6#8 src
  | .extTime src => encodePkt 7#8 src
  | .extDist src => encodePkt 8#8 src
  | .extStatus src => encodePkt 9#8 src
  | .extStrength src => encodePkt 10#8 src
  | .extAcc src => encodePkt 11#8 src
  | .decode src => encodePkt 12#8 src
  | .emit => [13#8]
  | .diag => [14#8]
  | .flush => [15#8]

/-- How many bytes the shortest format has that holds `n` bytes. -/
def formatLength (n : Nat) : Nat :=
  if n ≤ 1 then 1 else if n ≤ 3 then 3 else if n ≤ 16 then 16 else if n ≤ 17 then 17 else 34

/-- Byte `k` of a word numbered as opcode_table.json numbers it: bits `[8k+7:8k]` (R8). -/
def wordByte (w k : Nat) : Byte := BitVec.ofNat 8 (w / 256 ^ k)

/-- The bytes of a table word, first byte first, with zeros above `nbits`. -/
def tableBytes (nbits w : Nat) : List Byte :=
  (List.range (formatLength ((nbits + 7) / 8))).map (wordByte (w % 2 ^ nbits))

/-- The operation the decoder reads from a table word. The P16 rows share one pattern (R61: "they are not
alternatives among which a decoder chooses"), so a bare 16-byte word is DECODE16's (log 18). -/
def decodeTableWord (nbits w : Nat) : Option Instr :=
  (decode (tableBytes nbits w)).toOption

end Sys2Proof
end

