-- ==== Sys2Proof/Machine/State.lean ====
section
/-! DEFINITION. Everything the spec gives the machine, as plain data, and its value right after reset (10_state,
70_reset_and_hazards R155, R24). INVENTORY.md, '## State', lists the fields with their rules. -/

namespace Sys2Proof.Machine

/-- STREAM (R21, R31) as far as its bytes are known: pairs of a stream offset and a byte, offsets strictly rising.
A byte it does not list has no fixed value: it reads as the free value `Config.streamByte` (U10, log 3). -/
abbrev Memory := List Host.Cell

/-- The canonical form: offsets strictly rising. -/
def Memory.wf (m : Memory) : Bool := decide (m.Pairwise fun a b => a.1 < b.1)

/-- `PHASE` (R17). -/
inductive Phase where
  | idle
  | read
  | locate
  | chksum
  | decode
  | emit
  | flush
  | stoppedOk
  | stoppedErr
  deriving DecidableEq, Repr

/-- The model's own (log 4): the instant of `PHASE` the sequencer is at. "Iteration boundary is not a value of
`PHASE`" (R116). -/
inductive SeqPoint where
  /-- the stage or transaction of `PHASE` is next -/
  | op
  /-- the DIAG that follows it is next ("after DIAG", R116) -/
  | report
  /-- the iteration boundary, where `STOPREQ` is sampled -/
  | boundary
  deriving DecidableEq, Repr

/-- `STATUS` (R16), the outcome of an iteration. -/
inductive Status where
  | ok
  | incompletePacket
  | headerNotFound
  | checksumMismatch
  | transportFailure
  | interrupted
  deriving DecidableEq, Repr

/-- The `info` attached to an outcome (R131, R82, decision D18). -/
inductive Info where
  /-- of IncompletePacket: `WLEN` -/
  | wlen (n : Nat)
  /-- of HeaderNotFound: `no_hit` -/
  | noHit
  /-- of HeaderNotFound: `late_hit` with `OFF` -/
  | lateHit (off : Fin 30)
  /-- of HeaderNotFound on a wrong prefix: `prefix` (decision D8) -/
  | wrongHeader
  /-- of ChecksumMismatch: `SUM`, `CAND[15]`, and `OFF` where the packet came from a window -/
  | sums (sum checksum : Byte) (off : Option (Fin 30))
  /-- of OK: the record, and `OFF` where the packet came from a window -/
  | record (off : Option (Fin 30)) (m : Measurement)
  deriving DecidableEq, Repr

/-- The six registers `MEAS.*` (R18), each with or without a value (R22), and the model's own mark `validated` (log 26):
`MEAS` stands as it was written from a packet on which CHKSUM passed, in the sequence, by FRAME or by DECODE16. -/
structure MeasRegs where
  id : Option (BitVec 8)
  systemTimeMs : Option (BitVec 32)
  distanceMm : Option (BitVec 24)
  signalStatus : Option (BitVec 8)
  signalStrength : Option (BitVec 16)
  signalAccuracy : Option (BitVec 8)
  /-- the model's: a validated record (log 26) -/
  validated : Bool
  deriving DecidableEq, Repr

/-- No field of `MEAS` holds a value (R24). -/
def MeasRegs.empty : MeasRegs := ⟨none, none, none, none, none, none, false⟩

/-- How a run ends (R117, the END channel of R120). -/
inductive EndReason where
  | stoppedOk
  | stoppedErr
  deriving DecidableEq, Repr

/-- One transaction the core issued, with its answer (R120). -/
inductive Xact where
  /-- SRC.read(asked, timeout) and its answer -/
  | srcRead (asked timeout : Nat) (answer : ReadAnswer)
  /-- SRC.flush and its answer -/
  | srcFlush (answer : FlushAnswer)
  /-- SINK.emit(MEAS) -/
  | sinkEmit (m : Measurement)
  /-- DIAG(STATUS, info) -/
  | diag (status : Status) (info : Option Info)
  /-- END -/
  | ended (e : EndReason)
  deriving DecidableEq, Repr

/-- A control input (the CTL channels of R120), or the model's `pass` and `arrive` (log 6, log 7). -/
inductive Input where
  /-- CTL.start (R156) -/
  | start
  /-- CTL.stop (R137) -/
  | stop
  /-- CTL.reset (R155) -/
  | reset
  /-- `n` more bytes arrive at the transport (R21, R146) -/
  | arrive (n : Nat)
  /-- no input lands before the core's next move -/
  | pass
  deriving DecidableEq, Repr

/-- A register whose read R22 forbids while it holds no value. -/
inductive Reg where
  | win
  | off
  | cand
  | meas
  | status
  deriving DecidableEq, Repr

/-- What stops the machine with a fault. -/
inductive Fault where
  /-- Raised by an operation that reads a register which holds no value: "a model must treat a read of it as a fault
  of the model" (R22, U13, decision D10). Raised by LOCATE and FRAME (`win`), CHKSUM, EXT.* and DECODE (`cand`), CHKSUM
  and DECODE where their `info` takes OFF (`off`), EMIT (`meas`), DIAG (`status`) in their register forms. Safe: it only
  makes claims unprovable. -/
  | noValue (r : Reg)
  deriving DecidableEq, Repr

/-- What stops the machine with a refusal. -/
inductive Refusal where
  /-- An operation without a meaning in this model, by its mnemonic; raised by no arm of `exec`. Safe. -/
  | notModelled (mnemonic : String)
  /-- A direct request whose bytes are no operation (U11, U12, R61); raised by `step`. Safe. -/
  | badRequest (e : DecodeError)
  /-- LOCATE or FRAME on inputs with `WLEN` over 32: "must refuse it" (R37, decision D7). Safe. -/
  | windowTooLong (wlen : Nat)
  deriving DecidableEq, Repr

/-- The machine: the core's registers, the environment's state (R21) and the model's own fields. -/
structure State where
  /-- `WIN` and `WLEN` (R11, R12) -/
  window : Option RawChunk
  /-- `FOUND` (R13); `none` is the spec's "no value" (R24, R155) -/
  found : Option Bool
  /-- `OFF` (R13); `none` is the spec's "no value" (R24, R155, and R13: "When `FOUND` = 0, `OFF` holds no value") -/
  off : Option (Fin 30)
  /-- `CAND` (R14) -/
  cand : Option Packet
  /-- `SUM` (R15) -/
  sum : Option Byte
  /-- `SUMOK` (R15) -/
  sumok : Option Bool
  /-- `MEAS` (R18) -/
  meas : MeasRegs
  /-- `STATUS` (R16) -/
  status : Option Status
  /-- the `info` of `STATUS` (R131) -/
  info : Option Info
  /-- `PHASE` (R17) -/
  phase : Phase
  /-- the model's: the instant of `PHASE` (log 4) -/
  seq : SeqPoint
  /-- `STOPREQ` (R20) -/
  stopreq : Bool
  /-- `STREAM` (R21), the known bytes -/
  stream : Memory
  /-- `POS` (R21) -/
  pos : Nat
  /-- `RXQ` (R21): the number of bytes `q` in `STREAM[POS : POS + q]` -/
  rxq : Nat
  /-- the model's: the answers to the next READs, as far as fixed (log 2) -/
  readQ : List ReadAnswer
  /-- the model's: the answers to the next FLUSHes, as far as fixed (log 2) -/
  flushQ : List FlushAnswer
  /-- the model's: how many answers were drawn (log 2) -/
  draws : Nat
  /-- the model's: the control inputs to come, the next one first (log 6) -/
  inputs : List Input
  /-- the model's: the bytes of a pending direct-use request, none if empty (log 1) -/
  port : List Byte
  /-- what the channels carried, oldest first (R117, R120) -/
  trace : List Xact
  deriving DecidableEq, Repr

/-- Right after reset (R24, R155): `PHASE` IDLE, `STOPREQ` 0, "and every other core register of 10_state.md holds no
value" (R155). -/
def State.reset : State where
  window := none
  found := none
  off := none
  cand := none
  sum := none
  sumok := none
  meas := MeasRegs.empty
  status := none
  info := none
  phase := .idle
  seq := .op
  stopreq := false
  stream := []
  pos := 0
  rxq := 0
  readQ := []
  flushQ := []
  draws := 0
  inputs := []
  port := []
  trace := []

end Sys2Proof.Machine
end

