-- ==== Sys2Proof/Machine/Operands.lean ====
section
/-! DEFINITION. The offset spaces WINDOW, PACKET and PAYLOAD (20_memory R31), little-endian assembly (R8, R32), the
six field values (30_encoding R54), PKT (R60), the barrel shifter's view (R78, R105), and where an operation's window
or packet comes from. -/

namespace Sys2Proof.Machine

/-- `le(S)`: byte `S[k]` has weight `256^k` (R8). -/
def le : List Byte → Nat
  | [] => 0
  | b :: bs => b.toNat + 256 * le bs

/-- `PAYLOAD[q] = CAND[q + 3]` (R31). -/
def payload (p : Packet) (q : Fin 13) : Byte := p[q.val + 3]

/-- `MemRead(PAYLOAD, q, n)` (R8): the bytes at `PAYLOAD` offsets `q` .. `q+n-1`. -/
def payloadBytes (c : Packet) (q n : Nat) : List Byte :=
  (c.toList.drop (q + Config.headerLength)).take n

/-- The value of a field: `le(MemRead(PAYLOAD, q, n))` with its row of FIELD_LAYOUT (R32, R53). -/
def fieldNat (c : Packet) (f : Field) : Nat :=
  le (payloadBytes c (Config.fieldOffset f) (Config.fieldWidth f))

/-- `id` (R96). -/
def fieldId (c : Packet) : BitVec 8 := BitVec.ofNat 8 (fieldNat c .id)

/-- `systemTimeMs` (R97). -/
def fieldTime (c : Packet) : BitVec 32 := BitVec.ofNat 32 (fieldNat c .systemTimeMs)

/-- `distanceMm` (R98). -/
def fieldDist (c : Packet) : BitVec 24 := BitVec.ofNat 24 (fieldNat c .distanceMm)

/-- `signalStatus` (R99). -/
def fieldStatus (c : Packet) : BitVec 8 := BitVec.ofNat 8 (fieldNat c .signalStatus)

/-- `signalStrength` (R100). -/
def fieldStrength (c : Packet) : BitVec 16 := BitVec.ofNat 16 (fieldNat c .signalStrength)

/-- `signalAccuracy` (R101). -/
def fieldAcc (c : Packet) : BitVec 8 := BitVec.ofNat 8 (fieldNat c .signalAccuracy)

/-- The record of a packet: the six field values (R54, R102). -/
def recordOf (c : Packet) : Measurement :=
  ⟨fieldId c, fieldTime c, fieldDist c, fieldStatus c, fieldStrength c, fieldAcc c⟩

/-- Byte `k` of a field value, the least significant first: `v[8k+7:8k]` (R60). -/
def byteOf {n : Nat} (v : BitVec n) (k : Nat) : Byte := v.extractLsb' (8 * k) 8

/-- Bytes 0..14 of `PKT`: the header and the six fields (R60). -/
def pktBody (m : Measurement) : List Byte :=
  [Config.h0, Config.h1, Config.h2,
   m.id,
   byteOf m.systemTimeMs 0, byteOf m.systemTimeMs 1, byteOf m.systemTimeMs 2, byteOf m.systemTimeMs 3,
   byteOf m.distanceMm 0, byteOf m.distanceMm 1, byteOf m.distanceMm 2,
   m.signalStatus,
   byteOf m.signalStrength 0, byteOf m.signalStrength 1,
   m.signalAccuracy]

/-- The sum of a list of bytes as a natural: exact, nothing discarded (R86). -/
def byteSum : List Byte → Nat
  | [] => 0
  | b :: bs => b.toNat + byteSum bs

/-- PKT (R60): the valid packet that carries a record. -/
def pkt (m : Measurement) : Packet :=
  ⟨(pktBody m ++ [BitVec.ofNat 8 (byteSum (pktBody m) % Config.checksumModulus)]).toArray, by
    simp [pktBody]⟩

/-- The packet word `P = le(C)` (R8, decision D5). -/
def packetWord (c : Packet) : BitVec 128 := BitVec.ofNat 128 (le c.toList)

/-- The window word `le(WIN[0 : 32])` (R54, R78). -/
def windowWord (w : Window) : BitVec 256 := BitVec.ofNat 256 (le w.toList)

/-- The full window, where READ returned all 32 bytes (R70: the only length at which LOCATE searches). -/
def fullWindow (c : RawChunk) : Option Window :=
  if h : c.bytes.length = 32 then some ⟨c.bytes.toArray, by simp [h]⟩ else none

/-- The slice `WIN[off : off + 16]` (R78). -/
def slice (w : Window) (off : Nat) (h : off + 16 ≤ 32) : Packet :=
  Vector.ofFn fun p : Fin 16 => w[off + p.val]

/-- The bytes the combinational use presents: the first `WLEN` of the window's inputs (R120, R22). -/
def pinsChunk (wlen : Nat) (w : Window) : RawChunk :=
  ⟨w.toList.take wlen, by simp⟩

/-- The window an operation works on; reading `WIN` while it holds no value is a fault (R22), and `WLEN` over 32 is
refused (D7). -/
def withWindow (src : WinSrc) (s : State) (f : RawChunk → State) : Host.Outcome State Fault Refusal :=
  match src with
  | .regs =>
    match s.window with
    | some c => .next (f c)
    | none => .fault (.noValue .win)
  | .pins wlen w =>
    if wlen.toNat ≤ Config.windowLength then .next (f (pinsChunk wlen.toNat w))
    else .refused (.windowTooLong wlen.toNat)

/-- Reading an operation's packet; reading `CAND` while it holds no value is a fault (R22). -/
def readPacket (src : PktSrc) (s : State) (k : Packet → Host.Outcome State Fault Refusal) :
    Host.Outcome State Fault Refusal :=
  match src with
  | .cand =>
    match s.cand with
    | some p => k p
    | none => .fault (.noValue .cand)
  | .word p => k p

/-- Reading the `OFF` that belongs to an operation's packet: the register for `CAND`, none for a packet word, which has
no place in a window. Reading `OFF` while it holds no value is a fault (R22). -/
def readOff (src : PktSrc) (s : State) (k : Option (Fin 30) → Host.Outcome State Fault Refusal) :
    Host.Outcome State Fault Refusal :=
  match src with
  | .cand =>
    match s.off with
    | some o => k (some o)
    | none => .fault (.noValue .off)
  | .word _ => k none

/-- An operation that only needs its packet. -/
def withPacket (src : PktSrc) (s : State) (f : Packet → State) : Host.Outcome State Fault Refusal :=
  readPacket src s fun p => .next (f p)

end Sys2Proof.Machine
end

