-- ==== Sys2Proof/Machine/Flags.lean ====
section
/-! DEFINITION. What the flags FOUND, SUMOK and STATUS are computed from (10_state R23): the header search in its three
forms (40_frame_locator R70, R76, R77), the checksum in its two (41_checksum_validator R85, R86), the valid packet
(30_encoding R57) and the outcome codes (60_exceptions R131). -/

namespace Sys2Proof.Machine

/-- `hit[i]` (R71): the three bytes at window offset `i` equal the sync header, all 24 bits compared. -/
def hit (w : Window) (i : Fin 30) : Bool :=
  w[i.val] == Config.h0 && w[i.val + 1] == Config.h1 && w[i.val + 2] == Config.h2

/-- The least hit offset, "the first occurrence" (R70): the priority encoder over the thirty lanes (R76). -/
def firstHit (w : Window) : Option (Fin 30) := (List.finRange 30).find? (hit w)

/-- The search confined to offsets 0..16 (R73: 17 comparators). -/
def firstHit17 (w : Window) : Option (Fin 30) :=
  ((List.finRange 30).take 17).find? (hit w)

/-- One byte of the sliding-window matcher (R77): the match-progress state `M` in 0..2 and byte `b`; `none` is the
hit. -/
def matcherStep (m : Nat) (b : Byte) : Option Nat :=
  if m = 2 ∧ b = Config.h2 then none
  else if m = 1 ∧ b = Config.h1 then some 2
  else if b = Config.h0 then some 1
  else some 0

/-- The matcher from byte `n` on: the offset of the first hit it reports, "hit at offset n - 2" (R77). -/
def matcherFrom (m n : Nat) : List Byte → Option Nat
  | [] => none
  | b :: bs =>
    match matcherStep m b with
    | none => some (n - 2)
    | some m' => matcherFrom m' (n + 1) bs

/-- The byte-serial search of a window: `M` is 0 at its start (R77). -/
def serialSearch (w : Window) : Option Nat := matcherFrom 0 0 w.toList

/-- What LOCATE computes from a window (R70). -/
inductive LocateResult where
  | incomplete (wlen : Nat)
  | noHit
  | lateHit (off : Fin 30)
  | found (off : Fin 30) (cand : Packet)
  deriving DecidableEq, Repr

/-- LOCATE as a pure function of (`WLEN`, `WIN`) (R70, R81): the length test first (R75), then the search, then the
bound (R72). -/
def locate (c : RawChunk) : LocateResult :=
  match fullWindow c with
  | none => .incomplete c.bytes.length
  | some w =>
    match firstHit w with
    | none => .noHit
    | some off => if h : off.val + 16 ≤ 32 then .found off (slice w off.val h) else .lateHit off

/-- `SUM` (R85): the sum of bytes 0..14 modulo 256. -/
def checksum (c : Packet) : Byte :=
  BitVec.ofNat 8 (byteSum (c.toList.take Config.checksumOffset) % Config.checksumModulus)

/-- `SUM` accumulated in an 8-bit register, every carry out discarded (R86). -/
def serialChecksum (c : Packet) : Byte :=
  (c.toList.take Config.checksumOffset).foldl (fun acc b => acc + b) 0#8

/-- `SUMOK` (R85): `SUM = CAND[15]`. -/
def checksumOk (p : Packet) : Bool := checksum p == p[15]

/-- The prefix test of DECODE16 (R110). -/
def headerMatches (p : Packet) : Bool :=
  p[0] == Config.h0 && p[1] == Config.h1 && p[2] == Config.h2

/-- A valid packet (R57). -/
def validPacket (c : Packet) : Bool := headerMatches c && checksumOk c

/-- The numeric `STATUS` codes (R131, decision D9). -/
def Status.code : Status → BitVec 3
  | .ok => 0#3
  | .incompletePacket => 1#3
  | .headerNotFound => 2#3
  | .checksumMismatch => 3#3
  | .transportFailure => 4#3
  | .interrupted => 5#3

end Sys2Proof.Machine
end

