-- ==== Sys2Proof/Machine/Ops.lean ====
section
/-! DEFINITION. The named operations over the registers and the environment: the stream, the draws, `PHASE`, taking a
failure and going on to the next iteration (60_exceptions R135, R140, R141), the control inputs. -/

namespace Sys2Proof.Machine

/-! The stream (20_memory R30, R31, R36). -/

/-- `STREAM[n]` (R21): a listed byte, or the free value of a byte that is not known (U10, log 3). -/
def Memory.byteAt (m : Memory) (n : Nat) : Byte :=
  match m.lookup n with
  | some b => b
  | none => Config.streamByte n

/-- The bytes `STREAM[a : a + k]`. -/
def Memory.bytesAt (m : Memory) (a k : Nat) : List Byte :=
  (List.range k).map fun j => Memory.byteAt m (a + j)

/-- A stretch of known bytes from offset `a` on, for writing a stream down. -/
def Memory.ofBytes (a : Nat) : List Byte → Memory
  | [] => []
  | b :: bs => (a, b) :: Memory.ofBytes (a + 1) bs

/-- What a READ of `k` bytes puts into the window: `WIN[j] <- STREAM[POS + j]` (R36). -/
def readChunk (s : State) (k : Fin 33) : RawChunk :=
  ⟨Memory.bytesAt s.stream s.pos k.val, by simp [Memory.bytesAt]; omega⟩

/-- The Reader's next answer: the queued one, else a free draw (R36, R40, U4, U6; log 2). -/
def nextReadAnswer (s : State) : ReadAnswer :=
  match s.readQ with
  | a :: _ => a
  | [] => Config.readAnswer s.draws

/-- The transport's next answer to a FLUSH: the queued one, else a free draw (R42, U5, U6; log 2). -/
def nextFlushAnswer (s : State) : FlushAnswer :=
  match s.flushQ with
  | a :: _ => a
  | [] => Config.flushAnswer s.draws

/-! The registers. -/

/-- Every datapath register without a value (R22, R25). -/
def clearRegs (s : State) : State :=
  { s with window := none, found := none, off := none, cand := none, sum := none, sumok := none,
           meas := MeasRegs.empty }

/-- A validated record in `MEAS`: all six fields at once (R18, R102). -/
def MeasRegs.ofRecord (m : Measurement) : MeasRegs :=
  ⟨some m.id, some m.systemTimeMs, some m.distanceMm, some m.signalStatus, some m.signalStrength,
   some m.signalAccuracy, true⟩

/-- The same six fields, not validated: what DECODE alone writes (R102, log 26). -/
def MeasRegs.unvalidated (m : Measurement) : MeasRegs := { MeasRegs.ofRecord m with validated := false }

/-- CHKSUM passed on the packet that `MEAS` was just written from: "a Measurement is only ever constructed from a
CandidatePacket whose checksum has been verified" (R112). -/
def MeasRegs.validate (r : MeasRegs) : MeasRegs := { r with validated := true }

/-- The record `MEAS` holds, where all six fields hold a value (R18, R22). -/
def MeasRegs.record? (r : MeasRegs) : Option Measurement :=
  match r.id, r.systemTimeMs, r.distanceMm, r.signalStatus, r.signalStrength, r.signalAccuracy with
  | some i, some t, some d, some st, some g, some a => some ⟨i, t, d, st, g, a⟩
  | _, _, _, _, _, _ => none

/-- The validated record that can be read: `MEAS`, where `STATUS` is OK ("`MEAS.*` when `STATUS` is not `OK`" holds no
value, R22) and CHKSUM has passed on the packet it was written from: "there is no bypass" (R93), and "the sink receives a
complete, validated record" (R113). What a DECODE or EXT wrote in direct use is no record, whatever `STATUS` an earlier
operation left and whatever the fields hold (log 26). -/
def State.record? (s : State) : Option Measurement :=
  if s.status = some .ok ∧ s.meas.validated = true then s.meas.record? else none

/-- One more transaction on the channels (R120). -/
def record (x : Xact) (s : State) : State := { s with trace := s.trace ++ [x] }

/-! The sequencer (43_pipeline_sequencer R116). -/

/-- An iteration is in progress: `PHASE` in READ .. FLUSH (R145). -/
def Phase.running : Phase → Bool
  | .idle => false
  | .read => true
  | .locate => true
  | .chksum => true
  | .decode => true
  | .emit => true
  | .flush => true
  | .stoppedOk => false
  | .stoppedErr => false

/-- The sequencer is at the operation of phase `p`. -/
def State.atOp (s : State) (p : Phase) : Bool := s.phase == p && s.seq == .op

/-- The transition `p` -> `q` of R116, where the sequencer is at `p`; an operation used directly leaves `PHASE`
alone (log 11). -/
def advance (p q : Phase) (s : State) : State :=
  if s.atOp p then { s with phase := q } else s

/-! Failures: taking one (R140, R135), and going on (R141). -/

/-- TAKING A RECOVERABLE FAILURE (R140): nothing is saved; `STATUS` takes the kind; in an iteration its registers become
dead and control goes, after the DIAG, to the iteration boundary. Outside an iteration (direct use, log 11) only
`STATUS`, `info` and `MEAS`, which holds no value when `STATUS` is not OK (R22), change. -/
def takeFailure (k : Status) (i : Info) (s : State) : State :=
  if s.phase.running then
    { clearRegs s with status := some k, info := some i, seq := .report }
  else { s with status := some k, info := some i, meas := MeasRegs.empty }

/-- TAKING THE FATAL FAILURE (R135): TransportFailure, STOPPED_ERR at once and END; outside an iteration `PHASE` stays
(log 11). -/
def takeFatal (s : State) : State :=
  if s.phase.running then
    record (.ended .stoppedErr)
      { clearRegs s with status := some .transportFailure, info := none, phase := .stoppedErr, seq := .op }
  else { clearRegs s with status := some .transportFailure, info := none }

/-- THE RETURN (R141, R115, R116): there is no return operation; at the iteration boundary `STOPREQ` is sampled, and the
next iteration starts from scratch at READ, or the run ends STOPPED_OK. -/
def iterationBoundary (s : State) : State :=
  if s.stopreq then
    record (.ended .stoppedOk)
      { clearRegs s with status := some .interrupted, info := none, phase := .stoppedOk, seq := .op }
  else { clearRegs s with status := none, info := none, phase := .read, seq := .op }

/-- The result of an operation: `ok(values)` or `fail(Kind, info)`, with the state it leaves (R8). -/
inductive OpResult (α : Type) where
  | ok (a : α) (s : State)
  | fail (k : Status) (i : Info) (s : State)

/-- One operation after another; the first failure ends it (R111). -/
def OpResult.andThen {α β : Type} (r : OpResult α) (f : α → State → OpResult β) : OpResult β :=
  match r with
  | .ok a s => f a s
  | .fail k i s => .fail k i s

/-- The state after an operation: a failure is taken. -/
def OpResult.conclude {α : Type} (r : OpResult α) : State :=
  match r with
  | .ok _ s => s
  | .fail k i s => takeFailure k i s

/-! The control inputs (43_pipeline_sequencer R120). -/

/-- CTL.start (R156): leaves IDLE for the iteration boundary; in any other phase no effect. -/
def ctlStart (s : State) : State :=
  if s.atOp .idle then { s with seq := .boundary } else s

/-- CTL.stop (R137, R20): the latch is set and stays set. -/
def ctlStop (s : State) : State := { s with stopreq := true }

/-- CTL.reset (R155): from any state; the transport and the channels are not touched. -/
def ctlReset (s : State) : State :=
  { clearRegs s with status := none, info := none, phase := .idle, seq := .op, stopreq := false }

/-- What an input does when it lands. -/
def applyInput (i : Input) (s : State) : State :=
  match i with
  | .start => ctlStart s
  | .stop => ctlStop s
  | .reset => ctlReset s
  | .arrive n => { s with rxq := s.rxq + n }
  | .pass => s

/-! What the channels carried (R117). -/

/-- The Measurements the sink received, in order (R117 a). -/
def State.emitted (s : State) : List Measurement :=
  s.trace.filterMap fun x => match x with
    | .sinkEmit m => some m
    | _ => none

/-- The DIAG kinds, in order (R117 b). -/
def State.diags (s : State) : List Status :=
  s.trace.filterMap fun x => match x with
    | .diag k _ => some k
    | _ => none

/-- The final status, where the run ended (R117 c). -/
def State.ending (s : State) : Option EndReason :=
  match s.phase with
  | .stoppedOk => some .stoppedOk
  | .stoppedErr => some .stoppedErr
  | _ => none

end Sys2Proof.Machine
end

