-- ==== Sys2Proof/Machine/Interface.lean ====
section
/-! DEFINITION. The transactions with the environment: READ (20_memory R36), FLUSH (R42), EMIT
(43_pipeline_sequencer R113), DIAG (R114). -/

namespace Sys2Proof.Machine

/-- A failed READ (R40): `WIN` and `WLEN` hold no value, and `POS`, which never decreases (R21), is unspecified from then
on: a free value (log 8). -/
def readFailed (s : State) : State :=
  takeFatal (record (.srcRead Config.windowLength Config.readTimeout .failure)
    { s with window := none, pos := s.pos + Config.posAfterFailure s.draws, readQ := s.readQ.tail, draws := s.draws + 1 })

/-- A READ that returned `k` bytes (R36): they are `STREAM[POS : POS + k]`, and they are gone from the stream (R38). In an
iteration no other register holds a value yet. A direct READ, which the spec does not describe, leaves `CAND`, `OFF`,
`SUM` and `MEAS` of an earlier window standing, so `CAND` is then no slice of `WIN` (R14, R46; DESIGN CHOICE, log 11). -/
def readDone (k : Fin 33) (s : State) : State :=
  advance .read .locate (record (.srcRead Config.windowLength Config.readTimeout (.bytes k))
    { s with window := some (readChunk s k), pos := s.pos + k.val, rxq := s.rxq - k.val, readQ := s.readQ.tail,
             draws := s.draws + 1 })

/-- READ(32, READ_TIMEOUT) (R36). -/
def readState (s : State) : State :=
  match nextReadAnswer s with
  | .failure => readFailed s
  | .bytes k => readDone k s

/-- FLUSH (R42): `m = len(RXQ)` bytes are discarded unseen, the bytes that arrived late among them. -/
def flushDone (late : Nat) (s : State) : State :=
  record (.srcFlush (.done late))
    { s with pos := s.pos + (s.rxq + late), rxq := 0, flushQ := s.flushQ.tail, draws := s.draws + 1,
             seq := if s.atOp .flush then .boundary else s.seq }

/-- A failed FLUSH (R42, decision D13): it raises before `POS` moves. -/
def flushFailed (s : State) : State :=
  takeFatal (record (.srcFlush .failure) { s with flushQ := s.flushQ.tail, draws := s.draws + 1 })

/-- FLUSH() (R42). -/
def flushState (s : State) : State :=
  match nextFlushAnswer s with
  | .failure => flushFailed s
  | .done late => flushDone late s

/-- EMIT (R113): the record goes to the sink, and "the core keeps no copy" (R25). -/
def emitState (m : Measurement) (s : State) : State :=
  record (.sinkEmit m)
    { s with meas := MeasRegs.empty, seq := if s.atOp .emit then .report else s.seq }

/-- After the DIAG that ends a stage (R116): from EMIT to FLUSH, from a failure to the iteration boundary. -/
def afterReport (s : State) : State :=
  if s.seq = .report then
    if s.phase = .emit then { s with phase := .flush, seq := .op } else { s with seq := .boundary }
  else s

/-- DIAG (R114): carries `STATUS` and `info`; no other effect. -/
def diagState (k : Status) (s : State) : State := afterReport (record (.diag k s.info) s)

/-- READ (R36). -/
def execRead (s : State) : Host.Outcome State Fault Refusal := .next (readState s)

/-- FLUSH (R42). -/
def execFlush (s : State) : Host.Outcome State Fault Refusal := .next (flushState s)

/-- EMIT (R113) of "a complete, validated record"; reading `MEAS` while it holds none, as when `STATUS` is not OK, is a
fault (R22). -/
def execEmit (s : State) : Host.Outcome State Fault Refusal :=
  match s.record? with
  | some m => .next (emitState m s)
  | none => .fault (.noValue .meas)

/-- DIAG (R114); reading `STATUS` while it holds no value is a fault (R22). -/
def execDiag (s : State) : Host.Outcome State Fault Refusal :=
  match s.status with
  | some k => .next (diagState k s)
  | none => .fault (.noValue .status)

end Sys2Proof.Machine
end

