-- ==== Sys2Proof/Machine/Decoder.lean ====
section
/-! DEFINITION. The field extractions EXT.* and DECODE (42_field_decoder R96 to R102). None can fail (R103) and none tests
the checksum (R102). An extraction or a DECODE used alone writes its fields and no `STATUS` (DESIGN CHOICE, log 11), and
what it wrote counts as not validated, so EMIT cannot send it (R93; log 26). -/

namespace Sys2Proof.Machine

/-- EXT.ID writes `MEAS.id` (R96). -/
def putId (c : Packet) (r : MeasRegs) : MeasRegs := { r with id := some (fieldId c), validated := false }

/-- EXT.TIME writes `MEAS.systemTimeMs` (R97). -/
def putTime (c : Packet) (r : MeasRegs) : MeasRegs := { r with systemTimeMs := some (fieldTime c), validated := false }

/-- EXT.DIST writes `MEAS.distanceMm` (R98). -/
def putDist (c : Packet) (r : MeasRegs) : MeasRegs := { r with distanceMm := some (fieldDist c), validated := false }

/-- EXT.STATUS writes `MEAS.signalStatus` (R99). -/
def putStatus (c : Packet) (r : MeasRegs) : MeasRegs := { r with signalStatus := some (fieldStatus c), validated := false }

/-- EXT.STRENGTH writes `MEAS.signalStrength` (R100). -/
def putStrength (c : Packet) (r : MeasRegs) : MeasRegs := { r with signalStrength := some (fieldStrength c), validated := false }

/-- EXT.ACC writes `MEAS.signalAccuracy` (R101). -/
def putAcc (c : Packet) (r : MeasRegs) : MeasRegs := { r with signalAccuracy := some (fieldAcc c), validated := false }

/-- The six extractions, one after another (R102). -/
def putAll (c : Packet) (r : MeasRegs) : MeasRegs :=
  putAcc c (putStrength c (putStatus c (putDist c (putTime c (putId c r)))))

/-- DECODE in its place in the sequence: the iteration has succeeded, so the sequencer writes `STATUS` OK with `OFF` and
the record as its `info` (R115, R131), and the decode attempt ends, with it `CAND` and `OFF` (R25). Outside its place no
STATUS is written (DESIGN CHOICE, log 11), and the record does not count as validated (R93, log 26); in its place CHKSUM
has passed on the packet (R112). -/
def endDecodeAttempt (c : Packet) (off : Option (Fin 30)) (s : State) : State :=
  if s.atOp .decode then
    { s with meas := s.meas.validate, phase := .emit, status := some .ok, info := some (.record off (recordOf c)),
             cand := none, off := none }
  else s

/-- DECODE of a packet (R102): the whole of `MEAS`. -/
def stDecode (c : Packet) (off : Option (Fin 30)) (s : State) : State :=
  endDecodeAttempt c off { s with meas := putAll c s.meas }

/-- EXT.ID (R96). -/
def execExtId (src : PktSrc) (s : State) : Host.Outcome State Fault Refusal :=
  withPacket src s fun c => { s with meas := putId c s.meas }

/-- EXT.TIME (R97). -/
def execExtTime (src : PktSrc) (s : State) : Host.Outcome State Fault Refusal :=
  withPacket src s fun c => { s with meas := putTime c s.meas }

/-- EXT.DIST (R98). -/
def execExtDist (src : PktSrc) (s : State) : Host.Outcome State Fault Refusal :=
  withPacket src s fun c => { s with meas := putDist c s.meas }

/-- EXT.STATUS (R99). -/
def execExtStatus (src : PktSrc) (s : State) : Host.Outcome State Fault Refusal :=
  withPacket src s fun c => { s with meas := putStatus c s.meas }

/-- EXT.STRENGTH (R100). -/
def execExtStrength (src : PktSrc) (s : State) : Host.Outcome State Fault Refusal :=
  withPacket src s fun c => { s with meas := putStrength c s.meas }

/-- EXT.ACC (R101). -/
def execExtAcc (src : PktSrc) (s : State) : Host.Outcome State Fault Refusal :=
  withPacket src s fun c => { s with meas := putAcc c s.meas }

/-- DECODE (R102). Only in its place in the sequence is `OFF` read, for the `info` of OK (R131). -/
def execDecode (src : PktSrc) (s : State) : Host.Outcome State Fault Refusal :=
  readPacket src s fun p =>
    if s.atOp .decode then readOff src s fun off => .next (stDecode p off s)
    else .next (stDecode p none s)

end Sys2Proof.Machine
end

