-- ==== Sys2Proof/Machine/Locator.lean ====
section
/-! DEFINITION. LOCATE, the Frame Locator (40_frame_locator R70). -/

namespace Sys2Proof.Machine

/-- After a failed LOCATE `CAND`, `SUM` and `SUMOK` hold no value (R22). -/
def locateFailed (s : State) : State := { s with cand := none, sum := none, sumok := none }

/-- LOCATE on the bytes of one READ (R70): writes `FOUND`, `OFF` and `CAND`. -/
def stLocate (c : RawChunk) (s : State) : OpResult (Fin 30 × Packet) :=
  match locate c with
  | .incomplete n => .fail .incompletePacket (.wlen n) (locateFailed s)
  | .noHit => .fail .headerNotFound .noHit { locateFailed s with found := some false, off := none }
  | .lateHit o => .fail .headerNotFound (.lateHit o) { locateFailed s with found := some true, off := some o }
  | .found o p =>
    .ok (o, p) (advance .locate .chksum { s with found := some true, off := some o, cand := some p })

/-- LOCATE (R70). -/
def execLocate (src : WinSrc) (s : State) : Host.Outcome State Fault Refusal :=
  withWindow src s fun c => (stLocate c s).conclude

end Sys2Proof.Machine
end

