-- ==== Sys2Proof/Machine/Validator.lean ====
section
/-! DEFINITION. CHKSUM, the checksum validator (41_checksum_validator R85). -/

namespace Sys2Proof.Machine

/-- CHKSUM of a packet (R85): writes `SUM` and `SUMOK`. `off` is the `OFF` its failure reports (R131). -/
def stChksum (p : Packet) (off : Option (Fin 30)) (s : State) : OpResult Unit :=
  if checksumOk p then
    .ok () (advance .chksum .decode { s with sum := some (checksum p), sumok := some true })
  else
    .fail .checksumMismatch (.sums (checksum p) p[15] off)
      { s with sum := some (checksum p), sumok := some false }

/-- CHKSUM (R85). Only its failure reads `OFF`, for the `info` (R131). -/
def execChksum (src : PktSrc) (s : State) : Host.Outcome State Fault Refusal :=
  readPacket src s fun p =>
    if checksumOk p then .next (stChksum p none s).conclude
    else readOff src s fun off => .next (stChksum p off s).conclude

end Sys2Proof.Machine
end

