-- ==== Sys2Proof/Machine/Pipeline.lean ====
section
/-! DEFINITION. The composed datapath: FRAME (43_pipeline_sequencer R111), DECODE16 (R110), and the purely
combinational use (R120). -/

namespace Sys2Proof.Machine

/-- A composed operation returned a record: `STATUS` is OK, with the record as its `info` (R115, R131), and `MEAS` is
validated, since CHKSUM has passed (R111, R110). -/
def succeed (off : Option (Fin 30)) (m : Measurement) (s : State) : State :=
  { s with meas := s.meas.validate, status := some .ok, info := some (.record off m) }

/-- FRAME (R111): LOCATE, then CHKSUM, then DECODE; the first failure ends it. -/
def stFrame (c : RawChunk) (s : State) : OpResult (Fin 30 × Measurement) :=
  (stLocate c s).andThen fun (off, p) s1 =>
    (stChksum p (some off) s1).andThen fun _ s2 =>
      .ok (off, recordOf p) (succeed (some off) (recordOf p) (stDecode p (some off) s2))

/-- DECODE16 (R110): the header test first, then CHKSUM, then DECODE. -/
def stDecode16 (b : Packet) (s : State) : OpResult Measurement :=
  if headerMatches b then
    (stChksum b none s).andThen fun _ s1 => .ok (recordOf b) (succeed none (recordOf b) (stDecode b none s1))
  else .fail .headerNotFound .wrongHeader s

/-- FRAME (R111). -/
def execFrame (src : WinSrc) (s : State) : Host.Outcome State Fault Refusal :=
  withWindow src s fun c => (stFrame c s).conclude

/-- DECODE16 (R110). -/
def execDecode16 (b : Packet) (s : State) : Host.Outcome State Fault Refusal :=
  .next (stDecode16 b s).conclude

/-- What FRAME returns (R111): `ok(OFF, MEAS)` or a failure with its `info`. -/
inductive FrameResult where
  | ok (off : Fin 30) (m : Measurement)
  | fail (k : Status) (i : Info)
  deriving DecidableEq, Repr

/-- FRAME as a pure function of (`WLEN`, `WIN`) (R111, R119). -/
def frame (c : RawChunk) : FrameResult :=
  match locate c with
  | .incomplete n => .fail .incompletePacket (.wlen n)
  | .noHit => .fail .headerNotFound .noHit
  | .lateHit o => .fail .headerNotFound (.lateHit o)
  | .found o p =>
    if checksumOk p then .ok o (recordOf p)
    else .fail .checksumMismatch (.sums (checksum p) p[15] (some o))

/-- What DECODE16 returns (R110). -/
inductive Decode16Result where
  | ok (m : Measurement)
  | fail (k : Status) (i : Info)
  deriving DecidableEq, Repr

/-- DECODE16 as a pure function (R110). -/
def decode16 (b : Packet) : Decode16Result :=
  if headerMatches b then
    if checksumOk b then .ok (recordOf b) else .fail .checksumMismatch (.sums (checksum b) b[15] none)
  else .fail .headerNotFound .wrongHeader

end Sys2Proof.Machine
end

