-- ==== Sys2Proof/Machine/Sequencer.lean ====
section
/-! DEFINITION. ITER, one pass of the Consumer Loop (43_pipeline_sequencer R115), and what the sequencer does next at
each `PHASE` (R116). -/

namespace Sys2Proof.Machine

/-- One pass after `STOPREQ` was found 0 and READ returned the bytes `c` (R115): FRAME; on a failure DIAG; on success
EMIT, DIAG(OK), FLUSH. -/
def iterOn (c : RawChunk) (s : State) : State :=
  match stFrame c s with
  | .fail k i s1 => diagState k (takeFailure k i s1)
  | .ok (_, m) s1 => flushState (diagState .ok (emitState m s1))

/-- ITER (R115): the `STOPREQ` test at the boundary, one READ, and the rest of the pass. -/
def iterState (s : State) : State :=
  if s.stopreq then iterationBoundary s
  else
    match nextReadAnswer s with
    | .failure => readFailed (iterationBoundary s)
    | .bytes k => iterOn (readChunk s k) (readDone k (iterationBoundary s))

/-- ITER (R115). -/
def execIter (s : State) : Host.Outcome State Fault Refusal := .next (iterState s)

/-- What the core does at its next move. -/
inductive Fetched where
  /-- the operation `PHASE` selects (R116) -/
  | stage (i : Instr)
  /-- a direct-use request (log 1) -/
  | direct (i : Instr)
  /-- a direct-use request that is no operation -/
  | reject (e : DecodeError)
  /-- the iteration boundary (R116) -/
  | boundary
  /-- nothing: IDLE without a request (R156), or stopped (R145) -/
  | wait
  deriving DecidableEq, Repr

/-- In IDLE: a pending direct-use request, if any (log 1). -/
def fetchRequest (bs : List Byte) : Fetched :=
  match bs with
  | [] => .wait
  | _ =>
    match decode bs with
    | .ok i => .direct i
    | .error e => .reject e

/-- The stage or transaction of a `PHASE` (R116). -/
def fetchStage (p : Phase) : Fetched :=
  match p with
  | .idle => .wait
  | .read => .stage .read
  | .locate => .stage (.locate .regs)
  | .chksum => .stage (.chksum .cand)
  | .decode => .stage (.decode .cand)
  | .emit => .stage .emit
  | .flush => .stage .flush
  | .stoppedOk => .wait
  | .stoppedErr => .wait

/-- The sequencer's next move (R116); "in the stopped states the block does nothing until reset" (R145). -/
def fetch (s : State) : Fetched :=
  if s.phase = .stoppedOk ∨ s.phase = .stoppedErr then .wait
  else
    match s.seq with
    | .boundary => .boundary
    | .report => .stage .diag
    | .op => if s.phase = .idle then fetchRequest s.port else fetchStage s.phase

end Sys2Proof.Machine
end

