-- ==== Sys2Proof/Machine/Dispatch.lean ====
section
/-! DEFINITION. One arm per operation: each calls its meaning. -/

namespace Sys2Proof.Machine

def exec (i : Instr) (s : State) : Host.Outcome State Fault Refusal :=
  match i with
  | .iter => Sys2Proof.Machine.execIter s
  | .read => Sys2Proof.Machine.execRead s
  | .locate src => Sys2Proof.Machine.execLocate src s
  | .frame src => Sys2Proof.Machine.execFrame src s
  | .chksum src => Sys2Proof.Machine.execChksum src s
  | .decode16 b => Sys2Proof.Machine.execDecode16 b s
  | .extId src => Sys2Proof.Machine.execExtId src s
  | .extTime src => Sys2Proof.Machine.execExtTime src s
  | .extDist src => Sys2Proof.Machine.execExtDist src s
  | .extStatus src => Sys2Proof.Machine.execExtStatus src s
  | .extStrength src => Sys2Proof.Machine.execExtStrength src s
  | .extAcc src => Sys2Proof.Machine.execExtAcc src s
  | .decode src => Sys2Proof.Machine.execDecode src s
  | .emit => Sys2Proof.Machine.execEmit s
  | .diag => Sys2Proof.Machine.execDiag s
  | .flush => Sys2Proof.Machine.execFlush s

end Sys2Proof.Machine
end

