-- ==== Sys2Proof/Machine/Step.lean ====
section
/-! DEFINITION. One step: a control input lands, or the core makes its next move. -/

namespace Sys2Proof.Machine

/-- The core's own move: the operation `PHASE` selects (R116), a direct-use request (log 1, taken off the port), the
iteration boundary, or nothing. -/
def coreStep (s : State) : Host.Outcome State Fault Refusal :=
  match fetch s with
  | .stage i => exec i s
  | .direct i => exec i { s with port := [] }
  | .reject e => .refused (.badRequest e)
  | .boundary => .next (iterationBoundary s)
  | .wait => .next s

/-- One step (R146): an input that is due lands between two moves of the core (log 6); otherwise the core moves. -/
def step (s : State) : Host.Outcome State Fault Refusal :=
  match s.inputs with
  | [] => coreStep s
  | .pass :: is => coreStep { s with inputs := is }
  | i :: is => .next (applyInput i { s with inputs := is })

/-- Lays a table word where the core fetches its next operation: on the direct-use port of an idle core, with no input
due first. A 3-byte word (format H3) is "laid over the window at an offset `i`" (R56): it also stands at offset 0 of a
full window of zeros, since LOCATE works on the window (log 18). -/
def State.withFetchWord (s : State) (nbits w : Nat) : State :=
  { s with
    phase := .idle
    seq := .op
    inputs := .pass :: s.inputs
    port := tableBytes nbits w
    window :=
      if (tableBytes nbits w).length = 3 then
        some ⟨(tableBytes nbits w ++ List.replicate 29 0#8).take 32, by simp⟩
      else s.window }

end Sys2Proof.Machine
end

