-- ==== Sys2Proof/Machine/Reference.lean ====
section
/-! DEFINITION. The reference semantics of a run as a function of an environment script (43_pipeline_sequencer
R124). -/

namespace Sys2Proof.Machine

/-- One entry of an environment script (R124): the bytes the READ returns, or `failure`; the marks `stop-after` and
`flush-failure`. -/
structure ScriptEntry where
  bytes : Option RawChunk
  stopAfter : Bool
  flushFailure : Bool
  deriving DecidableEq, Repr

/-- What a run leaves behind (R117): the records emitted, the DIAG kinds, and how it ended, `none` while running. -/
structure RunResult where
  emitted : List Measurement
  diags : List Status
  ending : Option EndReason
  deriving DecidableEq, Repr

/-- RUN(script), with what was emitted and reported so far (R124). -/
def runFrom (emitted : List Measurement) (diags : List Status) : List ScriptEntry → RunResult
  | [] => ⟨emitted, diags, none⟩
  | e :: es =>
    match e.bytes with
    | none => ⟨emitted, diags, some .stoppedErr⟩
    | some c =>
      match frame c with
      | .ok _ m =>
        if e.flushFailure then ⟨emitted ++ [m], diags ++ [.ok], some .stoppedErr⟩
        else if e.stopAfter then ⟨emitted ++ [m], diags ++ [.ok], some .stoppedOk⟩
        else runFrom (emitted ++ [m]) (diags ++ [.ok]) es
      | .fail k _ =>
        if e.stopAfter then ⟨emitted, diags ++ [k], some .stoppedOk⟩
        else runFrom emitted (diags ++ [k]) es

/-- RUN(script) (R124). -/
def run (script : List ScriptEntry) : RunResult := runFrom [] [] script

end Sys2Proof.Machine
end

