-- ==== Sys2Proof/Safety.lean ====
section
/-! DEFINITION. The terms in which claims are made: what a safe run is, what stood in the stream, the sequencer's
invariant, and which part of the state an operation leaves alone. -/

namespace Sys2Proof.Machine

/-- No step of a run stops with a fault or a refusal. -/
def RunsSafely (s : State) : Prop := ∀ n, ∃ t, Host.Core.run Sys2Proof.core n s = .next t

/-- The bytes `bs` are a stretch of STREAM that ends at or before POS (R21, R36). -/
def StoodInStream (s : State) (bs : List Byte) : Prop :=
  ∃ a, a + bs.length ≤ s.pos ∧ bs = Memory.bytesAt s.stream a bs.length

/-- The sequencer's invariant, with no direct-use request pending (log 1): at each `PHASE` the registers the next
operation reads hold what the gating of R112 promises, and every record the sink received is the content of a valid
packet that stood in the stream (R160). -/
structure SeqInv (s : State) : Prop where
  port_empty : s.port = []
  idle_point : s.phase = .idle → s.seq ≠ .report
  stream_wf : Memory.wf s.stream = true
  locate_window : s.phase = .locate → s.seq = .op → ∃ c, s.window = some c ∧ StoodInStream s c.bytes
  chksum_candidate : s.phase = .chksum → s.seq = .op →
    ∃ p o, s.cand = some p ∧ headerMatches p = true ∧ StoodInStream s p.toList ∧
      s.found = some true ∧ s.off = some o ∧ o.val ≤ 16
  decode_candidate : s.phase = .decode → s.seq = .op →
    ∃ p, s.cand = some p ∧ validPacket p = true ∧ StoodInStream s p.toList ∧
      s.sum = some p[15] ∧ s.sumok = some true ∧ ∃ o, s.off = some o
  emit_record : s.phase = .emit → s.seq = .op →
    ∃ m, s.record? = some m ∧ StoodInStream s (pkt m).toList
  report_status : s.seq = .report → ∃ k, s.status = some k
  emitted_stood : ∀ m ∈ s.emitted, StoodInStream s (pkt m).toList

/-- The gate before DECODE (R112, R93), direct use included: where the sequencer is at DECODE, CHKSUM has passed. -/
def ChecksumGate (s : State) : Prop := s.phase = .decode → s.seq = .op → s.sumok = some true

/-- The environment's part of the state, and the model's queues and port, are unchanged. -/
structure SameEnvironment (s t : State) : Prop where
  stream : t.stream = s.stream
  pos : t.pos = s.pos
  rxq : t.rxq = s.rxq
  readQ : t.readQ = s.readQ
  flushQ : t.flushQ = s.flushQ
  draws : t.draws = s.draws
  inputs : t.inputs = s.inputs
  port : t.port = s.port

/-- A recoverable failure `k` with `info` `i` was taken (R140): nothing is saved, `STATUS` takes the kind, no
transaction is issued; in an iteration every register is dead and the DIAG is next; `MEAS` holds no value when `STATUS` is
not OK (R22). -/
structure FailureTaken (k : Status) (i : Info) (s t : State) : Prop where
  status : t.status = some k
  info : t.info = some i
  meas : t.meas = MeasRegs.empty
  trace : t.trace = s.trace
  stopreq : t.stopreq = s.stopreq
  environment : SameEnvironment s t
  inIteration : s.phase.running = true →
    t.window = none ∧ t.found = none ∧ t.off = none ∧ t.cand = none ∧ t.sum = none ∧ t.sumok = none ∧
    t.seq = .report ∧ t.phase.running = true
  outside : s.phase.running = false → t.window = s.window ∧ t.phase = s.phase ∧ t.seq = s.seq

/-- The table of R116 for the core's own moves: from `s`, with the event named, to `t`. -/
def PhaseTable (s t : State) : Prop :=
  match s.phase, s.seq with
  | .stoppedOk, _ => t = s
  | .stoppedErr, _ => t = s
  | _, .boundary =>
    (s.stopreq = true → t.phase = .stoppedOk) ∧ (s.stopreq = false → t.phase = .read ∧ t.seq = .op)
  | p, .report =>
    (p = .emit → t.phase = .flush ∧ t.seq = .op) ∧ (p ≠ .emit → t.phase = p ∧ t.seq = .boundary)
  | .idle, .op => t = s
  | .read, .op =>
    (nextReadAnswer s = .failure → t.phase = .stoppedErr) ∧
    (∀ k, nextReadAnswer s = .bytes k → t.phase = .locate ∧ t.seq = .op)
  | .locate, .op => ∀ c, s.window = some c →
    (∀ o p, locate c = .found o p → t.phase = .chksum ∧ t.seq = .op) ∧
    ((∀ o p, locate c ≠ .found o p) → t.phase = .locate ∧ t.seq = .report)
  | .chksum, .op => ∀ p, s.cand = some p →
    (checksumOk p = true → t.phase = .decode ∧ t.seq = .op) ∧
    (checksumOk p = false → t.phase = .chksum ∧ t.seq = .report)
  | .decode, .op => t.phase = .emit ∧ t.seq = .op
  | .emit, .op => t.phase = .emit ∧ t.seq = .report
  | .flush, .op =>
    (nextFlushAnswer s = .failure → t.phase = .stoppedErr) ∧
    (∀ m, nextFlushAnswer s = .done m → t.phase = .flush ∧ t.seq = .boundary)

/-- The window an operation works on, where it has one: the register form needs a value in `WIN`, the direct form
`WLEN` at most 32. -/
def windowAt (src : WinSrc) (s : State) : Option RawChunk :=
  match src with
  | .regs => s.window
  | .pins wlen w => if wlen.toNat ≤ 32 then some (pinsChunk wlen.toNat w) else none

/-- The packet an operation works on, where it has one: the register form needs a value in `CAND`. -/
def packetAt (src : PktSrc) (s : State) : Option Packet :=
  match src with
  | .cand => s.cand
  | .word p => some p

/-- The `OFF` that belongs to an operation's packet, where it can be read: the register's value for `CAND`, none for a
packet word. -/
def offAt (src : PktSrc) (s : State) : Option (Option (Fin 30)) :=
  match src with
  | .cand => s.off.map some
  | .word _ => some none

/-- A hit of the sync header at offset `i` of some bytes, in the literals of R71. -/
def HitAt (bs : List Byte) (i : Nat) : Prop :=
  bs[i]? = some 0x57#8 ∧ bs[i + 1]? = some 0x00#8 ∧ bs[i + 2]? = some 0xFF#8

/-- `i` is the least hit offset of some bytes (R70). -/
def FirstHitAt (bs : List Byte) (i : Nat) : Prop := HitAt bs i ∧ ∀ j < i, ¬ HitAt bs j

/-- The state presents the script entry `e` to the next iteration (R124): the Reader will answer with its bytes, or with
a failure, and the FLUSH, if one is reached, fails exactly if the entry says so. -/
structure Presents (s : State) (e : ScriptEntry) : Prop where
  read : match e.bytes with
    | none => nextReadAnswer s = .failure
    | some c => ∃ k, nextReadAnswer s = .bytes k ∧ readChunk s k = c
  flush : ∀ c o m, e.bytes = some c → frame c = .ok o m →
    (e.flushFailure = true ↔ nextFlushAnswer { s with draws := s.draws + 1 } = .failure)

/-- `u` is the state after the iterations of a script (R124), each with the environment's moves that its entry names: the
operator raises the stop request in the entries marked so, and the next boundary takes it. -/
inductive FollowsScript : List ScriptEntry → State → State → Prop where
  | done (s : State) : FollowsScript [] s s
  | failed (e : ScriptEntry) (es : List ScriptEntry) (s t : State) (hp : Presents s e)
      (hi : exec .iter s = .next t) (he : t.ending = some .stoppedErr) : FollowsScript (e :: es) s t
  | stopped (e : ScriptEntry) (es : List ScriptEntry) (s t u : State) (hp : Presents s e)
      (hi : exec .iter s = .next t) (hr : t.ending = none) (hs : e.stopAfter = true)
      (hu : exec .iter (ctlStop t) = .next u) : FollowsScript (e :: es) s u
  | next (e : ScriptEntry) (es : List ScriptEntry) (s t u : State) (hp : Presents s e)
      (hi : exec .iter s = .next t) (hr : t.ending = none) (hs : e.stopAfter = false)
      (hu : FollowsScript es t u) : FollowsScript (e :: es) s u

end Sys2Proof.Machine
end

