-- ==== Sys2Proof/Certificates/Slice0/Obligations.lean ====
section
/-! DEFINITION. The statements for the provers, from the numbered rules of spec/. -/

open Sys2Proof Sys2Proof.Machine

/-! Reset, the control inputs, the sequencer. -/

/-- R24, R155: what reset leaves. -/
def Obligations.ResetLeavesNoValues : Prop :=
  State.reset.phase = .idle ∧ State.reset.stopreq = false ∧ State.reset.status = none ∧
  State.reset.window = none ∧ State.reset.found = none ∧ State.reset.off = none ∧ State.reset.cand = none ∧
  State.reset.sum = none ∧ State.reset.sumok = none ∧ State.reset.meas = MeasRegs.empty

/-- R155: CTL.reset from any state; the transport and the channels are not touched, nor the model's queues and port
(log 24); the `info` is cleared with `STATUS` (log 10). -/
def Obligations.CtlResetFromAnyState : Prop :=
  ∀ (s : State) (is : List Input), s.inputs = .reset :: is →
    ∃ t, step s = .next t ∧ t.phase = .idle ∧ t.stopreq = false ∧ t.status = none ∧ t.info = none ∧
      t.window = none ∧ t.found = none ∧ t.off = none ∧ t.cand = none ∧ t.sum = none ∧ t.sumok = none ∧
      t.meas = MeasRegs.empty ∧ t.trace = s.trace ∧ SameEnvironment { s with inputs := is } t

/-- R156: CTL.start leaves IDLE, and the first thing of a run is the `STOPREQ` test, then a READ; in any other phase it
has no effect. That PHASE still reads IDLE at the first boundary, and `seq` itself, are the model's choice (log 4). -/
def Obligations.CtlStartLeavesIdleOnly : Prop :=
  (∀ (s : State), s.phase = .idle → s.seq = .op → s.inputs = [.start] →
    ∃ t, step s = .next t ∧ t = { s with inputs := [], seq := .boundary } ∧
      (s.stopreq = true → ∃ u, step t = .next u ∧ u.phase = .stoppedOk ∧ u.status = some .interrupted ∧
        u.trace = s.trace ++ [.ended .stoppedOk]) ∧
      (s.stopreq = false → ∃ u, step t = .next u ∧ u.phase = .read ∧ u.seq = .op ∧ u.trace = s.trace ∧
        step u = exec .read u)) ∧
  (∀ (s : State) (is : List Input), s.phase ≠ .idle → s.inputs = .start :: is →
    step s = .next { s with inputs := is })

/-- R20, R137: CTL.stop sets the latch, and no step clears it but CTL.reset. -/
def Obligations.StopRequestIsLatched : Prop :=
  (∀ (s : State) (is : List Input), s.inputs = .stop :: is →
    step s = .next { s with inputs := is, stopreq := true }) ∧
  (∀ (s t : State), s.stopreq = true → s.inputs.head? ≠ some .reset → step s = .next t → t.stopreq = true)

/-- R115, R116, R136, R137: at the iteration boundary the stop request is taken, or the next iteration starts. That no
datapath register holds a value then is R22 with R25 (log 9); that STATUS holds none is the model's choice (log 10). -/
def Obligations.BoundaryTakesStopRequest : Prop :=
  ∀ (s : State), s.seq = .boundary → s.phase ≠ .stoppedOk → s.phase ≠ .stoppedErr → s.inputs = [] →
    ∃ t, step s = .next t ∧ SameEnvironment s t ∧ t.stopreq = s.stopreq ∧
      t.window = none ∧ t.found = none ∧ t.off = none ∧ t.cand = none ∧ t.sum = none ∧ t.sumok = none ∧
      t.meas = MeasRegs.empty ∧
      (s.stopreq = true → t.phase = .stoppedOk ∧ t.status = some .interrupted ∧
        t.trace = s.trace ++ [.ended .stoppedOk]) ∧
      (s.stopreq = false → t.phase = .read ∧ t.seq = .op ∧ t.status = none ∧ t.trace = s.trace)

/-- R137, R139: a step that honours the stop request starts at an iteration boundary, or runs a whole ITER on a direct
ITER request in IDLE (the port: log 1; ITER there: log 21). -/
def Obligations.StopTakenOnlyAtBoundary : Prop :=
  ∀ (s t : State), step s = .next t → t.phase = .stoppedOk → s.phase ≠ .stoppedOk →
    s.stopreq = true ∧
      (s.seq = .boundary ∨ (s.phase = .idle ∧ s.seq = .op ∧ decode s.port = .ok .iter))

/-- R145, R116: in the stopped states the block does nothing until reset; only an operator's CTL.stop can still set the
latch (R20). -/
def Obligations.StoppedDoesNothingUntilReset : Prop :=
  ∀ (s t : State), s.phase = .stoppedOk ∨ s.phase = .stoppedErr → s.inputs.head? ≠ some .reset → step s = .next t →
    t.phase = s.phase ∧ t.status = s.status ∧ t.info = s.info ∧ t.trace = s.trace ∧ t.pos = s.pos ∧
    t.window = s.window ∧ t.found = s.found ∧ t.off = s.off ∧ t.cand = s.cand ∧ t.sum = s.sum ∧
    t.sumok = s.sumok ∧ t.meas = s.meas ∧ t.seq = s.seq ∧ t.stream = s.stream ∧
    (s.inputs.head? ≠ some .stop → t.stopreq = s.stopreq)

/-- R116: the whole of the block's control transfer, with no direct request pending. The instants inside a `PHASE` are
the model's (log 4). -/
def Obligations.PhaseFollowsTable : Prop :=
  ∀ (s : State), SeqInv s → s.inputs = [] → ∃ t, step s = .next t ∧ PhaseTable s t

/-! What a step runs. -/

/-- The step runs what the sequencer selects: the stage of `PHASE` (R116), the DIAG after it, or, in IDLE, the operation
that the request's bytes decode to (log 1), which is taken off the port; a request that is no operation is refused (U12,
log 1). An arrival of bytes changes RXQ and nothing else (R21, R146, log 7), and after a `pass` the core moves (log 6). -/
def Obligations.StepRunsSelectedOperation : Prop :=
  (∀ (s : State), s.inputs = [] →
    (s.phase = .idle → s.seq = .op → ∀ i, s.port ≠ [] → decode s.port = .ok i →
      step s = exec i { s with port := [] }) ∧
    (s.phase = .idle → s.seq = .op → ∀ e, s.port ≠ [] → decode s.port = .error e →
      step s = .refused (.badRequest e)) ∧
    (s.seq = .op →
      (s.phase = .read → step s = exec .read s) ∧
      (s.phase = .locate → step s = exec (.locate .regs) s) ∧
      (s.phase = .chksum → step s = exec (.chksum .cand) s) ∧
      (s.phase = .decode → step s = exec (.decode .cand) s) ∧
      (s.phase = .emit → step s = exec .emit s) ∧
      (s.phase = .flush → step s = exec .flush s)) ∧
    (s.seq = .report → s.phase ≠ .stoppedOk → s.phase ≠ .stoppedErr → step s = exec .diag s)) ∧
  (∀ (s : State) (n : Nat) (is : List Input), s.inputs = .arrive n :: is →
    step s = .next { s with inputs := is, rxq := s.rxq + n }) ∧
  (∀ (s : State) (is : List Input), s.inputs = .pass :: is → step s = coreStep { s with inputs := is }) ∧
  (∀ (s : State), s.inputs = [] → step s = coreStep s)

/-- R51, R52, R56 and the selectors of log 1: a few words written out. -/
def Obligations.SpecWordsDecode : Prop :=
  decode [0x57#8, 0x00#8, 0xFF#8] = .ok (.locate .regs) ∧
  decode [0x57#8, 0x00#8, 0xFE#8] = .error .notHeader ∧
  decode [0x57#8, 0x00#8, 0xFF#8, 0x01#8, 0xE8#8, 0x03#8, 0x00#8, 0x00#8, 0x64#8, 0x00#8, 0x00#8, 0x01#8, 0x32#8,
    0x00#8, 0x05#8, 0xDE#8] = .ok (.decode16 (pkt ⟨1, 1000, 100, 1, 50, 5⟩)) ∧
  decode [0x57#8, 0x00#8, 0xFF#8, 0x01#8, 0xE8#8, 0x03#8, 0x00#8, 0x00#8, 0x64#8, 0x00#8, 0x00#8, 0x01#8, 0x32#8,
    0x00#8, 0x05#8, 0xDE#8, 0x07#8] = .ok (.extTime (.word (pkt ⟨1, 1000, 100, 1, 50, 5⟩))) ∧
  decode [0x0F#8] = .ok .flush

/-- Decoding an encoded well-formed operation gives it back, with every operand at every value. -/
def Obligations.DecodeOfEncode : Prop :=
  ∀ (i : Instr), i.wf = true → decode (encode i) = .ok i

/-- Each request has one spelling: what decodes to an operation is that operation's encoding, and the operation is well
formed. -/
def Obligations.EncodeOfDecode : Prop :=
  ∀ (bs : List Byte) (i : Instr), decode bs = .ok i → encode i = bs ∧ i.wf = true

/-! READ and FLUSH. -/

/-- R36, R38: a READ that returns `k` bytes puts `STREAM[POS + j]` into `WIN[j]`, sets `WLEN`, advances `POS`, and
changes nothing else but the queue and counter it drew the answer from (log 2), the pending count (log 7) and, in its
place in the sequence, `PHASE`. That a direct READ leaves the registers of an earlier window standing is the model's
choice (log 11). -/
def Obligations.ReadReturnsNextStreamBytes : Prop :=
  ∀ (s : State) (k : Fin 33), nextReadAnswer s = .bytes k →
    ∃ c : RawChunk, c.bytes.length = k.val ∧
      (∀ j < k.val, c.bytes[j]? = some (Memory.byteAt s.stream (s.pos + j))) ∧
      exec .read s = .next { s with
        window := some c, pos := s.pos + k.val, rxq := s.rxq - k.val, readQ := s.readQ.tail, draws := s.draws + 1,
        trace := s.trace ++ [.srcRead 32 3 (.bytes k)],
        phase := if s.phase = .read ∧ s.seq = .op then .locate else s.phase }

/-- R42: FLUSH discards the pending bytes unseen, and changes nothing else but the queue and counter it drew the answer
from (log 2) and, in its place in the sequence, the sequencer's instant (log 4). -/
def Obligations.FlushDiscardsPending : Prop :=
  ∀ (s : State) (late : Nat), nextFlushAnswer s = .done late →
    exec .flush s = .next { s with
      pos := s.pos + (s.rxq + late), rxq := 0, flushQ := s.flushQ.tail, draws := s.draws + 1,
      trace := s.trace ++ [.srcFlush (.done late)],
      seq := if s.phase = .flush ∧ s.seq = .op then .boundary else s.seq }

/-- R135, R40: a failed READ or FLUSH in an iteration ends the run: STOPPED_ERR, END, no further transaction; what was
emitted stays emitted. The emptied registers are R22. After a failed READ `POS` is unspecified (R40); that it does not
fall is R21 as the model reads the two together (log 8). A failed FLUSH moves neither `POS` nor `RXQ` (log 23). On a
direct request outside an iteration `PHASE` stays
(log 11). -/
def Obligations.TransportFailureEndsRun : Prop :=
  (∀ (s : State), nextReadAnswer s = .failure → s.phase.running = true →
    ∃ t, exec .read s = .next t ∧ t.status = some .transportFailure ∧ t.phase = .stoppedErr ∧ t.window = none ∧
      t.trace = s.trace ++ [.srcRead 32 3 .failure, .ended .stoppedErr] ∧ s.pos ≤ t.pos ∧ t.stream = s.stream ∧
      t.stopreq = s.stopreq ∧ t.meas = MeasRegs.empty ∧ t.cand = none) ∧
  (∀ (s : State), nextFlushAnswer s = .failure → s.phase.running = true →
    ∃ t, exec .flush s = .next t ∧ t.status = some .transportFailure ∧ t.phase = .stoppedErr ∧
      t.trace = s.trace ++ [.srcFlush .failure, .ended .stoppedErr] ∧ t.pos = s.pos ∧ t.stream = s.stream ∧
      t.rxq = s.rxq ∧ t.stopreq = s.stopreq ∧ t.meas = MeasRegs.empty ∧ t.cand = none) ∧
  (∀ (s : State), s.phase.running = false →
    (nextReadAnswer s = .failure → ∃ t, exec .read s = .next t ∧ t.status = some .transportFailure ∧
      t.phase = s.phase ∧ t.seq = s.seq ∧ t.trace = s.trace ++ [.srcRead 32 3 .failure]) ∧
    (nextFlushAnswer s = .failure → ∃ t, exec .flush s = .next t ∧ t.status = some .transportFailure ∧
      t.phase = s.phase ∧ t.seq = s.seq ∧ t.trace = s.trace ++ [.srcFlush .failure]))

/-! LOCATE and the search. -/

/-- R70, R71: on a full window whose least hit is at 0..16 LOCATE writes `FOUND`, `OFF` and `CAND`, and nothing else but,
in its place in the sequence, `PHASE`. The window of the direct form is the first `WLEN` of its input bytes (R120). -/
def Obligations.LocateFindsFirstHit : Prop :=
  (∀ (s : State) (wlen : BitVec 6) (w : Window), wlen.toNat ≤ 32 →
    ∃ c, windowAt (.pins wlen w) s = some c ∧ c.bytes = w.toList.take wlen.toNat) ∧
  (∀ s : State, windowAt .regs s = s.window) ∧
  ∀ (src : WinSrc) (s : State) (c : RawChunk) (i : Fin 30), windowAt src s = some c → c.bytes.length = 32 →
    FirstHitAt c.bytes i.val → i.val ≤ 16 →
    ∃ p : Packet, (∀ (k : Nat) (hk : k < 16), c.bytes[i.val + k]? = some p[k]) ∧
      exec (.locate src) s = .next { s with
        found := some true, off := some i, cand := some p,
        phase := if s.phase = .locate ∧ s.seq = .op then .chksum else s.phase }

/-- R70, R72, R75, R82: when LOCATE fails, and with which `info`. That the failure is taken into STATUS outside an iteration
too, and PHASE stays there, is the model's choice (log 11); that CAND holds no value then is R22 (log 9). -/
def Obligations.LocateFailures : Prop :=
  ∀ (src : WinSrc) (s : State) (c : RawChunk), windowAt src s = some c →
    ∃ t, exec (.locate src) s = .next t ∧
      (c.bytes.length < 32 → FailureTaken .incompletePacket (.wlen c.bytes.length) s t ∧ t.phase = s.phase) ∧
      (c.bytes.length = 32 → (∀ i, ¬ HitAt c.bytes i) →
        FailureTaken .headerNotFound .noHit s t ∧ t.phase = s.phase ∧
        (s.phase.running = false → t.found = some false ∧ t.off = none ∧ t.cand = none)) ∧
      (c.bytes.length = 32 → ∀ i : Fin 30, FirstHitAt c.bytes i.val → 17 ≤ i.val →
        FailureTaken .headerNotFound (.lateHit i) s t ∧ t.phase = s.phase ∧
        (s.phase.running = false → t.found = some true ∧ t.off = some i ∧ t.cand = none))

/-- R70, R22, R120: LOCATE used directly, outside an iteration, and failing: all of what it leaves. That `STATUS` takes the
kind there too is the model's choice (log 11), and so is that `SUM` and `SUMOK` lose their values: R22 says they hold none
when LOCATE failed, R70 that LOCATE leaves them untouched, and log 9 (DEDUCED) follows R22. -/
def Obligations.LocateDirectUseFails : Prop :=
  ∀ (src : WinSrc) (s : State) (c : RawChunk), windowAt src s = some c → s.phase.running = false →
    (c.bytes.length < 32 → exec (.locate src) s = .next { s with
      cand := none, sum := none, sumok := none, meas := MeasRegs.empty,
      status := some .incompletePacket, info := some (.wlen c.bytes.length) }) ∧
    (c.bytes.length = 32 → (∀ i, ¬ HitAt c.bytes i) → exec (.locate src) s = .next { s with
      found := some false, off := none, cand := none, sum := none, sumok := none, meas := MeasRegs.empty,
      status := some .headerNotFound, info := some .noHit }) ∧
    (c.bytes.length = 32 → ∀ i : Fin 30, FirstHitAt c.bytes i.val → 17 ≤ i.val → exec (.locate src) s = .next { s with
      found := some true, off := some i, cand := none, sum := none, sumok := none, meas := MeasRegs.empty,
      status := some .headerNotFound, info := some (.lateHit i) })

/-- R70, R71: the search finds the least hit, all 24 bits compared, and finds none only where there is none. -/
def Obligations.SearchFindsLeastHit : Prop :=
  ∀ (w : Window),
    (∀ i : Fin 30, firstHit w = some i ↔ FirstHitAt w.toList i.val) ∧
    (firstHit w = none ↔ ∀ i, ¬ HitAt w.toList i)

/-- R77: the byte-serial sliding-window matcher reports the same first hit as the parallel search. -/
def Obligations.SerialMatcherEqualsSearch : Prop :=
  ∀ (w : Window), serialSearch w = (firstHit w).map fun i => i.val

/-- R73: LOCATE succeeds iff the window is full and its least hit is in 0..16, which is iff some hit is; the search
confined to 0..16 finds the same one, and none exactly where LOCATE fails on a full window, with a HeaderNotFound. -/
def Obligations.SeventeenComparatorsSuffice : Prop :=
  (∀ (c : RawChunk), (∃ o p, locate c = .found o p) ↔
    c.bytes.length = 32 ∧ ∃ i ≤ 16, FirstHitAt c.bytes i) ∧
  (∀ (bs : List Byte), (∃ i ≤ 16, FirstHitAt bs i) ↔ ∃ i ≤ 16, HitAt bs i) ∧
  (∀ (c : RawChunk) (w : Window), fullWindow c = some w →
    (∀ o p, locate c = .found o p → firstHit17 w = some o) ∧
    ((∀ o p, locate c ≠ .found o p) → firstHit17 w = none ∧ (locate c = .noHit ∨ ∃ i, locate c = .lateHit i)))

/-- R63: two hits of a window are at least 3 offsets apart. -/
def Obligations.HitsAreThreeApart : Prop :=
  ∀ (w : Window) (i j : Fin 30), hit w i = true → hit w j = true → i < j → i.val + 3 ≤ j.val

/-- R78: the slice copies sixteen bytes; as a word it is a right shift of the window word by a multiple of 8 bits, cut to
128 bits. -/
def Obligations.SliceIsBarrelShift : Prop :=
  ∀ (w : Window) (off : Nat) (h : off + 16 ≤ 32),
    (∀ (k : Nat) (hk : k < 16), (slice w off h)[k] = w[off + k]) ∧
    packetWord (slice w off h) = (windowWord w >>> (8 * off)).setWidth 128

/-! CHKSUM and the checksum. -/

/-- R85: CHKSUM passes iff the sum of bytes 0..14 modulo 256 is byte 15, and writes `SUM` and `SUMOK`; in its place in
the sequence `PHASE` goes on. -/
def Obligations.ChksumPasses : Prop :=
  ∀ (src : PktSrc) (s : State) (p : Packet), packetAt src s = some p →
    ((p.toList.take 15).map BitVec.toNat).sum % 256 = p[15].toNat →
    exec (.chksum src) s = .next { s with
      sum := some p[15], sumok := some true,
      phase := if s.phase = .chksum ∧ s.seq = .op then .decode else s.phase }

/-- R85, R131: otherwise it takes ChecksumMismatch with `SUM`, `CAND[15]` and `OFF` (none for a packet word), which must
hold a value (R22, log 5). That STATUS takes the failure outside an iteration too is the model's choice (log 11), and so
is that `CAND` and `OFF` keep their values there, where R25 ends them when CHKSUM fails (log 9). -/
def Obligations.ChksumMismatchTaken : Prop :=
  ∀ (src : PktSrc) (s : State) (p : Packet), packetAt src s = some p →
    ((p.toList.take 15).map BitVec.toNat).sum % 256 ≠ p[15].toNat → ∀ o, offAt src s = some o →
    ∃ (t : State) (v : Byte), exec (.chksum src) s = .next t ∧
      v.toNat = ((p.toList.take 15).map BitVec.toNat).sum % 256 ∧
      FailureTaken .checksumMismatch (.sums v p[15] o) s t ∧ t.phase = s.phase ∧
      (s.phase.running = false → t.sum = some v ∧ t.sumok = some false ∧ t.found = s.found ∧ t.off = s.off ∧
        t.cand = s.cand)

/-- R86: an 8-bit accumulator that discards every carry gives the same `SUM` as the exact sum reduced, and the order of
the additions does not matter. -/
def Obligations.SerialChecksumAgrees : Prop :=
  (∀ p : Packet, serialChecksum p = checksum p) ∧
  (∀ p q : Packet, (p.toList.take 15).Perm (q.toList.take 15) → checksum p = checksum q) ∧
  (∀ p : Packet, ((p.toList.take 15).map BitVec.toNat).sum ≤ 3825)

/-- R87: a valid packet changed in exactly one byte fails CHKSUM, always; a change below byte 15 changes the sum, one of
byte 15 does not, and one below byte 3 also destroys the header. -/
def Obligations.SingleByteChangeDetected : Prop :=
  ∀ (p : Packet) (k : Fin 16) (b : Byte), validPacket p = true → b ≠ p[k.val] →
    checksumOk (p.set k.val b) = false ∧
    (k.val ≤ 14 → checksum (p.set k.val b) ≠ checksum p) ∧
    (k.val = 15 → checksum (p.set k.val b) = checksum p) ∧
    (k.val ≤ 2 → headerMatches (p.set k.val b) = false)

/-- R88: for any fixed bytes 0..14 exactly one of the 256 values of byte 15 passes. -/
def Obligations.OneChecksumBytePasses : Prop :=
  ∀ (p : Packet), ∃! b : Byte, checksumOk (p.set 15 b) = true

/-- R64: the header contributes 0x56 to every checksum. -/
def Obligations.HeaderContributes56 : Prop :=
  ∀ (p : Packet), headerMatches p = true →
    (checksum p).toNat = (0x56 + ((p.toList.drop 3).take 12 |>.map BitVec.toNat).sum) % 256

/-- R57: what a valid packet is, in the source's words, and that DECODE16 succeeds exactly on these. -/
def Obligations.ValidPacketMeaning : Prop :=
  ∀ (p : Packet),
    (validPacket p = true ↔
      p[0] = 0x57#8 ∧ p[1] = 0x00#8 ∧ p[2] = 0xFF#8 ∧
      ((p.toList.take 15).map BitVec.toNat).sum % 256 = p[15].toNat) ∧
    ((∃ m, decode16 p = .ok m) ↔ validPacket p = true)

/-! The field extractions and DECODE. -/

/-- R96, R99, R101: EXT.ID, EXT.STATUS and EXT.ACC copy one byte, a bit slice of the packet word, and nothing else
changes but the model's own mark that `MEAS` is not validated (log 26). -/
def Obligations.ExtOneByteFields : Prop :=
  ∀ (src : PktSrc) (s : State) (p : Packet), packetAt src s = some p →
    (exec (.extId src) s = .next { s with meas := { s.meas with id := some p[3], validated := false } } ∧
      p[3] = (packetWord p).extractLsb' 24 8) ∧
    (exec (.extStatus src) s = .next { s with meas := { s.meas with signalStatus := some p[11], validated := false } } ∧
      p[11] = (packetWord p).extractLsb' 88 8) ∧
    (exec (.extAcc src) s = .next { s with meas := { s.meas with signalAccuracy := some p[14], validated := false } } ∧
      p[14] = (packetWord p).extractLsb' 112 8)

/-- R97, R98, R100: EXT.TIME, EXT.DIST and EXT.STRENGTH assemble their bytes little-endian, a bit slice of the packet
word, and nothing else changes but the model's own mark that `MEAS` is not validated (log 26). -/
def Obligations.ExtMultiByteFields : Prop :=
  ∀ (src : PktSrc) (s : State) (p : Packet), packetAt src s = some p →
    (∃ v : BitVec 32, exec (.extTime src) s = .next { s with meas := { s.meas with systemTimeMs := some v, validated := false } } ∧
      v.toNat = p[4].toNat + 256 * p[5].toNat + 65536 * p[6].toNat + 16777216 * p[7].toNat ∧
      v = (packetWord p).extractLsb' 32 32) ∧
    (∃ v : BitVec 24, exec (.extDist src) s = .next { s with meas := { s.meas with distanceMm := some v, validated := false } } ∧
      v.toNat = p[8].toNat + 256 * p[9].toNat + 65536 * p[10].toNat ∧
      v = (packetWord p).extractLsb' 64 24) ∧
    (∃ v : BitVec 16, exec (.extStrength src) s = .next { s with meas := { s.meas with signalStrength := some v, validated := false } } ∧
      v.toNat = p[12].toNat + 256 * p[13].toNat ∧
      v = (packetWord p).extractLsb' 96 16)

/-- R102, R25, R115: DECODE writes all six fields, cannot fail and tests no checksum; in its place in the sequence it
ends the decode attempt (log 9), and the iteration's outcome is OK, with `OFF` in its `info` (log 5). That STATUS stays as
it was outside it is the model's choice (log 11), and so is that `CAND` and `OFF` keep their values there, where R25 ends
them when DECODE completes (log 9); the mark `validated`, set in its place only, is the model's (log 26). -/
def Obligations.DecodeWritesRecord : Prop :=
  ∀ (src : PktSrc) (s : State) (p : Packet), packetAt src s = some p →
    ∃ m : Measurement,
      m.id = p[3] ∧
      m.systemTimeMs.toNat = p[4].toNat + 256 * p[5].toNat + 65536 * p[6].toNat + 16777216 * p[7].toNat ∧
      m.distanceMm.toNat = p[8].toNat + 256 * p[9].toNat + 65536 * p[10].toNat ∧
      m.signalStatus = p[11] ∧ m.signalStrength.toNat = p[12].toNat + 256 * p[13].toNat ∧
      m.signalAccuracy = p[14] ∧
      (¬ (s.phase = .decode ∧ s.seq = .op) →
        exec (.decode src) s = .next { s with meas := MeasRegs.unvalidated m }) ∧
      (s.phase = .decode → s.seq = .op → ∀ o, offAt src s = some o →
        exec (.decode src) s = .next { s with
          meas := MeasRegs.ofRecord m, phase := .emit, status := some .ok, info := some (.record o m),
          cand := none, off := none })

/-- R104, R60: valid packets and records determine each other, and PKT makes a valid packet. -/
def Obligations.PacketsAndRecordsOneToOne : Prop :=
  (∀ m : Measurement, validPacket (pkt m) = true ∧ recordOf (pkt m) = m) ∧
  (∀ p : Packet, validPacket p = true → pkt (recordOf p) = p)

/-! DECODE16 and FRAME. -/

/-- R110, R60: DECODE16 of PKT(v) is ok(v): the round trip. -/
def Obligations.Decode16RoundTrip : Prop :=
  ∀ (m : Measurement) (s : State), s.phase.running = false →
    exec (.decode16 (pkt m)) s = .next { s with
      sum := some (pkt m)[15], sumok := some true, meas := MeasRegs.ofRecord m, status := some .ok,
      info := some (.record none m) }

/-- R110: DECODE16 completes on every 16 bytes, succeeds iff they are a valid packet, and fails with HeaderNotFound
before ChecksumMismatch. That the operation writes STATUS and `info` is the model's choice (log 11). -/
def Obligations.Decode16SucceedsIffValid : Prop :=
  ∀ (b : Packet) (s : State), ∃ t, exec (.decode16 b) s = .next t ∧ SameEnvironment s t ∧ t.trace = s.trace ∧
    t.stopreq = s.stopreq ∧
    (t.status = some .ok ↔ validPacket b = true) ∧
    (validPacket b = true → t.meas = MeasRegs.ofRecord (recordOf b) ∧ t.sum = some b[15] ∧ t.sumok = some true ∧
      t.window = s.window ∧ t.found = s.found) ∧
    (headerMatches b = false → FailureTaken .headerNotFound .wrongHeader s t) ∧
    (headerMatches b = true → checksumOk b = false →
      FailureTaken .checksumMismatch (.sums (checksum b) b[15] none) s t)

/-- R110, R120: DECODE16 used directly, outside an iteration, and failing: all of what it leaves (`STATUS`: log 11). -/
def Obligations.Decode16DirectUseFails : Prop :=
  ∀ (b : Packet) (s : State), s.phase.running = false →
    (headerMatches b = false → exec (.decode16 b) s = .next { s with
      meas := MeasRegs.empty, status := some .headerNotFound, info := some .wrongHeader }) ∧
    (headerMatches b = true → checksumOk b = false → exec (.decode16 b) s = .next { s with
      sum := some (checksum b), sumok := some false, meas := MeasRegs.empty,
      status := some .checksumMismatch, info := some (.sums (checksum b) b[15] none) })

/-- R119: when FRAME succeeds, and what it returns, in terms of DECODE16. -/
def Obligations.FrameSucceedsIff : Prop :=
  ∀ (c : RawChunk) (o : Fin 30) (m : Measurement),
    frame c = .ok o m ↔
      c.bytes.length = 32 ∧ FirstHitAt c.bytes o.val ∧ o.val ≤ 16 ∧
      ∃ p : Packet, p.toList = (c.bytes.drop o.val).take 16 ∧ validPacket p = true ∧ decode16 p = .ok m

/-- R111, R139: FRAME's failures, exclusive and exhaustive, in the order of the pipeline. -/
def Obligations.FrameFailsInOrder : Prop :=
  ∀ (c : RawChunk),
    (c.bytes.length < 32 ↔ frame c = .fail .incompletePacket (.wlen c.bytes.length)) ∧
    (c.bytes.length = 32 → ((∀ i, ¬ HitAt c.bytes i) ↔ frame c = .fail .headerNotFound .noHit)) ∧
    (c.bytes.length = 32 → ∀ i : Fin 30, (FirstHitAt c.bytes i.val ∧ 17 ≤ i.val ↔
      frame c = .fail .headerNotFound (.lateHit i))) ∧
    (c.bytes.length = 32 → ∀ i : Fin 30, FirstHitAt c.bytes i.val → i.val ≤ 16 →
      ∀ p : Packet, p.toList = (c.bytes.drop i.val).take 16 → checksumOk p = false →
      frame c = .fail .checksumMismatch (.sums (checksum p) p[15] (some i)))

/-- R111, R120: the operation FRAME completes on every window and does what the pure function says. That it writes STATUS
and `info` itself, and that PHASE stays outside an iteration, is the model's choice (log 11), and so is that `OFF` still
holds its value there, where R25 ends it when DECODE completes (log 9). -/
def Obligations.FrameRunsDatapath : Prop :=
  ∀ (src : WinSrc) (s : State) (c : RawChunk), windowAt src s = some c →
    ∃ t, exec (.frame src) s = .next t ∧ SameEnvironment s t ∧ t.trace = s.trace ∧ t.stopreq = s.stopreq ∧
      (∀ o m, frame c = .ok o m → t.status = some .ok ∧ t.info = some (.record (some o) m) ∧
        t.meas = MeasRegs.ofRecord m ∧ t.sumok = some true ∧ t.found = some true ∧ t.window = s.window ∧
        (s.phase.running = false → t.off = some o ∧ t.phase = s.phase ∧ t.seq = s.seq)) ∧
      (∀ k i, frame c = .fail k i → FailureTaken k i s t)

/-- R111, R120: FRAME used directly, outside an iteration: all of what it leaves. That it writes `STATUS` and `info` is the
model's choice (log 11), and so is that `CAND` and `OFF` still hold their values: R25 ends them when CHKSUM fails or
DECODE completes, and log 9 (DEDUCED) takes that for the decode attempt of an iteration only. Where no candidate is found
it is LOCATE, in every state. -/
def Obligations.FrameDirectUse : Prop :=
  ∀ (src : WinSrc) (s : State) (c : RawChunk), windowAt src s = some c →
    ((∀ o p, locate c ≠ .found o p) → exec (.frame src) s = exec (.locate src) s) ∧
    (s.phase.running = false → ∀ o p, locate c = .found o p →
      (checksumOk p = true → exec (.frame src) s = .next { s with
        found := some true, off := some o, cand := some p, sum := some p[15], sumok := some true,
        meas := MeasRegs.ofRecord (recordOf p), status := some .ok, info := some (.record (some o) (recordOf p)) }) ∧
      (checksumOk p = false → exec (.frame src) s = .next { s with
        found := some true, off := some o, cand := some p, sum := some (checksum p), sumok := some false,
        meas := MeasRegs.empty, status := some .checksumMismatch,
        info := some (.sums (checksum p) p[15] (some o)) }))

/-- R80, S6 under the conditions of 90_conflicts C4: a valid packet wholly in a full window, with no hit before it, is
found, whatever surrounds it. -/
def Obligations.ResynchronizationFindsPacket : Prop :=
  ∀ (c : RawChunk) (j : Fin 30) (p : Packet), c.bytes.length = 32 → j.val ≤ 16 →
    p.toList = (c.bytes.drop j.val).take 16 → validPacket p = true → (∀ i < j.val, ¬ HitAt c.bytes i) →
    frame c = .ok j (recordOf p)

/-! EMIT, DIAG, ITER. -/

/-- R113, R25: EMIT hands the six fields to the sink once, always accepted, and keeps no copy. It reads MEAS, which holds a
record to send where STATUS is OK (R22) and the record is validated (R93; the mark, which `ofRecord` sets, is log 26). -/
def Obligations.EmitHandsRecordToSink : Prop :=
  ∀ (s : State) (m : Measurement), s.status = some .ok → s.meas = MeasRegs.ofRecord m →
    exec .emit s = .next { s with
      meas := MeasRegs.empty, trace := s.trace ++ [.sinkEmit m],
      seq := if s.phase = .emit ∧ s.seq = .op then .report else s.seq }

/-- R114, R116: DIAG carries `STATUS` and `info`, cannot fail, and has no effect on the core but, in its place in the
sequence, the way on. -/
def Obligations.DiagReportsOutcome : Prop :=
  ∀ (s : State) (k : Status), s.status = some k →
    exec .diag s = .next { s with
      trace := s.trace ++ [.diag k s.info],
      phase := if s.seq = .report ∧ s.phase = .emit then .flush else s.phase,
      seq := if s.seq = .report then (if s.phase = .emit then .op else .boundary) else s.seq }

/-- R115: the transactions of one pass, in order, its `STATUS` and where it leaves the sequencer. The answers' queues and
counter are the model's (log 2), and so are the value of PHASE at the boundary (log 4) and the pending count with its
late bytes (R42, log 7). -/
def Obligations.IterIssuesTransactions : Prop :=
  ∀ (s : State), ∃ t, exec .iter s = .next t ∧ t.stopreq = s.stopreq ∧ t.stream = s.stream ∧ t.inputs = s.inputs ∧
    (s.stopreq = true → t.phase = .stoppedOk ∧ t.status = some .interrupted ∧
      t.trace = s.trace ++ [.ended .stoppedOk]) ∧
    (s.stopreq = false → nextReadAnswer s = .failure → t.phase = .stoppedErr ∧
      t.status = some .transportFailure ∧ t.trace = s.trace ++ [.srcRead 32 3 .failure, .ended .stoppedErr]) ∧
    (s.stopreq = false → ∀ k, nextReadAnswer s = .bytes k →
      (∀ K i, frame (readChunk s k) = .fail K i → t.status = some K ∧ t.seq = .boundary ∧
        t.phase.running = true ∧ t.pos = s.pos + k.val ∧
        t.trace = s.trace ++ [.srcRead 32 3 (.bytes k), .diag K (some i)]) ∧
      (∀ o m, frame (readChunk s k) = .ok o m →
        (∀ late, nextFlushAnswer { s with draws := s.draws + 1 } = .done late →
          t.status = some .ok ∧ t.seq = .boundary ∧ t.phase = .flush ∧ t.rxq = 0 ∧
          t.pos = s.pos + k.val + ((s.rxq - k.val) + late) ∧
          t.trace = s.trace ++ [.srcRead 32 3 (.bytes k), .sinkEmit m, .diag .ok (some (.record (some o) m)),
            .srcFlush (.done late)]) ∧
        (nextFlushAnswer { s with draws := s.draws + 1 } = .failure →
          t.status = some .transportFailure ∧ t.phase = .stoppedErr ∧
          t.trace = s.trace ++ [.srcRead 32 3 (.bytes k), .sinkEmit m, .diag .ok (some (.record (some o) m)),
            .srcFlush .failure, .ended .stoppedErr])))

/-- R115, R116: from the iteration boundary the PHASE-by-PHASE run of the sequencer and the one operation ITER reach the
same state. -/
def Obligations.IterEqualsPhaseRun : Prop :=
  ∀ (s : State), s.inputs = [] → s.seq = .boundary → s.phase ≠ .stoppedOk → s.phase ≠ .stoppedErr →
    ∃ n, 1 ≤ n ∧ n ≤ 8 ∧ Host.Core.run Sys2Proof.core n s = exec .iter s

/-- R10: the outcome of an iteration, every register after it and what it sends are a function of the stop request, of the
bytes its READ returned and of the FLUSH's answer, and of no register. -/
def Obligations.IterationForgetsRegisters : Prop :=
  ∀ (s s' : State), s.stopreq = s'.stopreq → nextReadAnswer s = nextReadAnswer s' →
    (∀ k, nextReadAnswer s = .bytes k → readChunk s k = readChunk s' k) →
    nextFlushAnswer { s with draws := s.draws + 1 } = nextFlushAnswer { s' with draws := s'.draws + 1 } →
    ∃ t t' xs, exec .iter s = .next t ∧ exec .iter s' = .next t' ∧
      t.trace = s.trace ++ xs ∧ t'.trace = s'.trace ++ xs ∧
      t.status = t'.status ∧ t.info = t'.info ∧ t.phase = t'.phase ∧ t.seq = t'.seq ∧
      t.window = t'.window ∧ t.found = t'.found ∧ t.off = t'.off ∧ t.cand = t'.cand ∧ t.sum = t'.sum ∧
      t.sumok = t'.sumok ∧ t.meas = t'.meas

/-- R124, R117: a run over an environment script leaves the records, the DIAG kinds and the ending that the reference
function RUN gives. -/
def Obligations.RunMatchesReference : Prop :=
  ∀ (script : List ScriptEntry) (s u : State), s.stopreq = false → s.ending = none →
    FollowsScript script s u →
    u.emitted = s.emitted ++ (run script).emitted ∧ u.diags = s.diags ++ (run script).diags ∧
      u.ending = (run script).ending

/-! Invariants and whole-machine rules. -/

/-- The sequencer's invariant holds at reset. -/
def Obligations.SeqInvAtReset : Prop := SeqInv State.reset

/-- Every step keeps the sequencer's invariant (R112, R160). -/
def Obligations.StepKeepsSeqInv : Prop :=
  ∀ (s t : State), SeqInv s → step s = .next t → SeqInv t

/-- R22, R123: with no direct request pending the machine is never stopped by a fault or a refusal: no rule reads a
register that holds no value. -/
def Obligations.SequencerNeverStops : Prop :=
  ∀ (s : State), SeqInv s → RunsSafely s

/-- R123, R137: a stop request in a run is honoured after at most one iteration, every answer coming at once (log 13). -/
def Obligations.StopHonouredWithinOneIteration : Prop :=
  ∀ (s : State), SeqInv s → s.phase.running = true → s.stopreq = true → s.inputs = [] →
    ∃ n ≤ 9, ∃ t, Host.Core.run Sys2Proof.core n s = .next t ∧
      (t.phase = .stoppedOk ∨ t.phase = .stoppedErr)

/-- R21, R117: STREAM never changes, POS never decreases, and nothing sent is taken back, whatever the step. After a failed
READ R40 says that POS is unspecified from then on; that it does not fall in that case is the model's choice (log 8). -/
def Obligations.StreamAndTraceOnlyGrow : Prop :=
  ∀ (s t : State), step s = .next t → t.stream = s.stream ∧ s.pos ≤ t.pos ∧ s.trace <+: t.trace

/-- R42, R113, R114, R120: with no direct request pending a transaction is issued only in its own phase. -/
def Obligations.TransactionsOnlyInTheirPhase : Prop :=
  ∀ (s t : State), SeqInv s → step s = .next t →
    ∃ xs, t.trace = s.trace ++ xs ∧ ∀ x ∈ xs, match x with
      | .srcRead n w _ => s.phase = .read ∧ n = 32 ∧ w = 3
      | .srcFlush _ => s.phase = .flush
      | .sinkEmit m => s.phase = .emit ∧ s.status = some .ok ∧ s.meas = MeasRegs.ofRecord m
      | .diag k _ => s.seq = .report ∧ s.status = some k
      | .ended .stoppedOk => s.stopreq = true ∧ t.phase = .stoppedOk
      | .ended .stoppedErr => t.phase = .stoppedErr

/-- R22: an operation that reads a register which holds no value stops with that fault; `MEAS` holds none unless `STATUS`
is OK, and no record to send unless it is validated (R93; that EMIT then faults is the model's choice, log 26); `OFF` is read where the `info` takes it
(R131). Which form reads which register is log 5. -/
def Obligations.NoValueReadFaults : Prop :=
  ∀ (s : State),
    (s.window = none → exec (.locate .regs) s = .fault (.noValue .win) ∧
      exec (.frame .regs) s = .fault (.noValue .win)) ∧
    (s.cand = none → exec (.chksum .cand) s = .fault (.noValue .cand) ∧
      exec (.extId .cand) s = .fault (.noValue .cand) ∧ exec (.extTime .cand) s = .fault (.noValue .cand) ∧
      exec (.extDist .cand) s = .fault (.noValue .cand) ∧ exec (.extStatus .cand) s = .fault (.noValue .cand) ∧
      exec (.extStrength .cand) s = .fault (.noValue .cand) ∧ exec (.extAcc .cand) s = .fault (.noValue .cand) ∧
      exec (.decode .cand) s = .fault (.noValue .cand)) ∧
    (s.off = none →
      (∀ p, s.cand = some p → checksumOk p = false → exec (.chksum .cand) s = .fault (.noValue .off)) ∧
      (∀ p, s.cand = some p → s.phase = .decode → s.seq = .op → exec (.decode .cand) s = .fault (.noValue .off))) ∧
    (s.status ≠ some .ok → exec .emit s = .fault (.noValue .meas)) ∧
    ((∀ m, s.meas ≠ MeasRegs.ofRecord m) → exec .emit s = .fault (.noValue .meas)) ∧
    (s.meas.validated = false → exec .emit s = .fault (.noValue .meas)) ∧
    (s.status = none → exec .diag s = .fault (.noValue .status))

/-- R37, R169, decision D7: a window longer than 32 bytes is refused. -/
def Obligations.TooLongWindowRefused : Prop :=
  ∀ (wlen : BitVec 6) (w : Window) (s : State), 32 < wlen.toNat →
    exec (.locate (.pins wlen w)) s = .refused (.windowTooLong wlen.toNat) ∧
    exec (.frame (.pins wlen w)) s = .refused (.windowTooLong wlen.toNat)

/-- R131: the numeric `STATUS` codes. -/
def Obligations.StatusCodes : Prop :=
  Status.code .ok = 0#3 ∧ Status.code .incompletePacket = 1#3 ∧ Status.code .headerNotFound = 2#3 ∧
  Status.code .checksumMismatch = 3#3 ∧ Status.code .transportFailure = 4#3 ∧ Status.code .interrupted = 5#3

/-- R54: the record of a packet in the literals of R54, its fields as slices of the packet word, and, for a candidate
taken from a window, as slices of the shifted window word. -/
def Obligations.RecordFieldsAreLiteral : Prop :=
  (∀ p : Packet,
    (recordOf p).id = p[3] ∧
    (recordOf p).systemTimeMs.toNat = p[4].toNat + 256 * p[5].toNat + 65536 * p[6].toNat + 16777216 * p[7].toNat ∧
    (recordOf p).distanceMm.toNat = p[8].toNat + 256 * p[9].toNat + 65536 * p[10].toNat ∧
    (recordOf p).signalStatus = p[11] ∧
    (recordOf p).signalStrength.toNat = p[12].toNat + 256 * p[13].toNat ∧
    (recordOf p).signalAccuracy = p[14]) ∧
  (∀ p : Packet, recordOf p = ⟨(packetWord p).extractLsb' 24 8, (packetWord p).extractLsb' 32 32,
    (packetWord p).extractLsb' 64 24, (packetWord p).extractLsb' 88 8, (packetWord p).extractLsb' 96 16,
    (packetWord p).extractLsb' 112 8⟩) ∧
  (∀ (w : Window) (off : Nat) (h : off + 16 ≤ 32), recordOf (slice w off h) =
    ⟨(windowWord w >>> (8 * (off + 3))).setWidth 8, (windowWord w >>> (8 * (off + 4))).setWidth 32,
      (windowWord w >>> (8 * (off + 8))).setWidth 24, (windowWord w >>> (8 * (off + 11))).setWidth 8,
      (windowWord w >>> (8 * (off + 12))).setWidth 16, (windowWord w >>> (8 * (off + 14))).setWidth 8⟩)

/-- R93, R113: no bypass of the checksum. After a DECODE used directly, of whatever packet, and after any EXT, EMIT sends
nothing, whatever an earlier operation left in `STATUS`; after a FRAME or a DECODE16 used directly that is OK, EMIT sends
its record. That EMIT faults in the first case, and that direct use leaves STATUS standing, is the model's choice (log 26,
log 11): R93 and R113 forbid the sending and name no fault. -/
def Obligations.NoBypassOfChecksum : Prop :=
  (∀ (src : PktSrc) (s : State) (p : Packet), packetAt src s = some p → ¬ (s.phase = .decode ∧ s.seq = .op) →
    ∃ t, exec (.decode src) s = .next t ∧ exec .emit t = .fault (.noValue .meas)) ∧
  (∀ (src : PktSrc) (s : State) (p : Packet) (i : Instr), packetAt src s = some p →
    i = .extId src ∨ i = .extTime src ∨ i = .extDist src ∨ i = .extStatus src ∨ i = .extStrength src ∨ i = .extAcc src →
    ∃ t, exec i s = .next t ∧ exec .emit t = .fault (.noValue .meas)) ∧
  (∀ (src : WinSrc) (s : State) (c : RawChunk) (o : Fin 30) (m : Measurement), windowAt src s = some c →
    s.phase.running = false → frame c = .ok o m →
    ∃ t u, exec (.frame src) s = .next t ∧ exec .emit t = .next u ∧ u.trace = s.trace ++ [.sinkEmit m]) ∧
  (∀ (b : Packet) (s : State), s.phase.running = false → validPacket b = true →
    ∃ t u, exec (.decode16 b) s = .next t ∧ exec .emit t = .next u ∧ u.trace = s.trace ++ [.sinkEmit (recordOf b)])

/-- R93, R112: an OK is new only where CHKSUM has passed, whatever the step, direct requests included: the step leaves
`SUMOK` 1, or `STATUS` and its `info` as they were. The premise rules out states no run reaches (R112); it holds at reset
and every step keeps it. -/
def Obligations.OkOnlyAfterChecksum : Prop :=
  ChecksumGate State.reset ∧
  ∀ (s t : State), ChecksumGate s → step s = .next t →
    ChecksumGate t ∧
      (t.status = some .ok → t.sumok = some true ∨ (s.status = some .ok ∧ t.info = s.info))
end

