-- ==== Sys2Proof/Laws/State.lean ====
section
/-! SUPPORT. One lemma per field per update of the state, so that no later proof unfolds a record update. -/

namespace Sys2Proof.Machine

variable (s : State)

/-! `clearRegs` -/

@[simp] theorem clearRegs_window : (clearRegs s).window = none := rfl
@[simp] theorem clearRegs_found : (clearRegs s).found = none := rfl
@[simp] theorem clearRegs_off : (clearRegs s).off = none := rfl
@[simp] theorem clearRegs_cand : (clearRegs s).cand = none := rfl
@[simp] theorem clearRegs_sum : (clearRegs s).sum = none := rfl
@[simp] theorem clearRegs_sumok : (clearRegs s).sumok = none := rfl
@[simp] theorem clearRegs_meas : (clearRegs s).meas = MeasRegs.empty := rfl
@[simp] theorem clearRegs_status : (clearRegs s).status = s.status := rfl
@[simp] theorem clearRegs_info : (clearRegs s).info = s.info := rfl
@[simp] theorem clearRegs_phase : (clearRegs s).phase = s.phase := rfl
@[simp] theorem clearRegs_seq : (clearRegs s).seq = s.seq := rfl
@[simp] theorem clearRegs_stopreq : (clearRegs s).stopreq = s.stopreq := rfl
@[simp] theorem clearRegs_stream : (clearRegs s).stream = s.stream := rfl
@[simp] theorem clearRegs_pos : (clearRegs s).pos = s.pos := rfl
@[simp] theorem clearRegs_rxq : (clearRegs s).rxq = s.rxq := rfl
@[simp] theorem clearRegs_readQ : (clearRegs s).readQ = s.readQ := rfl
@[simp] theorem clearRegs_flushQ : (clearRegs s).flushQ = s.flushQ := rfl
@[simp] theorem clearRegs_draws : (clearRegs s).draws = s.draws := rfl
@[simp] theorem clearRegs_inputs : (clearRegs s).inputs = s.inputs := rfl
@[simp] theorem clearRegs_port : (clearRegs s).port = s.port := rfl
@[simp] theorem clearRegs_trace : (clearRegs s).trace = s.trace := rfl

/-! `record` -/

@[simp] theorem record_window (x : Xact) : (record x s).window = s.window := rfl
@[simp] theorem record_found (x : Xact) : (record x s).found = s.found := rfl
@[simp] theorem record_off (x : Xact) : (record x s).off = s.off := rfl
@[simp] theorem record_cand (x : Xact) : (record x s).cand = s.cand := rfl
@[simp] theorem record_sum (x : Xact) : (record x s).sum = s.sum := rfl
@[simp] theorem record_sumok (x : Xact) : (record x s).sumok = s.sumok := rfl
@[simp] theorem record_meas (x : Xact) : (record x s).meas = s.meas := rfl
@[simp] theorem record_status (x : Xact) : (record x s).status = s.status := rfl
@[simp] theorem record_info (x : Xact) : (record x s).info = s.info := rfl
@[simp] theorem record_phase (x : Xact) : (record x s).phase = s.phase := rfl
@[simp] theorem record_seq (x : Xact) : (record x s).seq = s.seq := rfl
@[simp] theorem record_stopreq (x : Xact) : (record x s).stopreq = s.stopreq := rfl
@[simp] theorem record_stream (x : Xact) : (record x s).stream = s.stream := rfl
@[simp] theorem record_pos (x : Xact) : (record x s).pos = s.pos := rfl
@[simp] theorem record_rxq (x : Xact) : (record x s).rxq = s.rxq := rfl
@[simp] theorem record_readQ (x : Xact) : (record x s).readQ = s.readQ := rfl
@[simp] theorem record_flushQ (x : Xact) : (record x s).flushQ = s.flushQ := rfl
@[simp] theorem record_draws (x : Xact) : (record x s).draws = s.draws := rfl
@[simp] theorem record_inputs (x : Xact) : (record x s).inputs = s.inputs := rfl
@[simp] theorem record_port (x : Xact) : (record x s).port = s.port := rfl
@[simp] theorem record_trace (x : Xact) : (record x s).trace = s.trace ++ [x] := rfl

/-! `locateFailed` -/

@[simp] theorem locateFailed_window : (locateFailed s).window = s.window := rfl
@[simp] theorem locateFailed_found : (locateFailed s).found = s.found := rfl
@[simp] theorem locateFailed_off : (locateFailed s).off = s.off := rfl
@[simp] theorem locateFailed_cand : (locateFailed s).cand = none := rfl
@[simp] theorem locateFailed_sum : (locateFailed s).sum = none := rfl
@[simp] theorem locateFailed_sumok : (locateFailed s).sumok = none := rfl
@[simp] theorem locateFailed_meas : (locateFailed s).meas = s.meas := rfl
@[simp] theorem locateFailed_status : (locateFailed s).status = s.status := rfl
@[simp] theorem locateFailed_info : (locateFailed s).info = s.info := rfl
@[simp] theorem locateFailed_phase : (locateFailed s).phase = s.phase := rfl
@[simp] theorem locateFailed_seq : (locateFailed s).seq = s.seq := rfl
@[simp] theorem locateFailed_stopreq : (locateFailed s).stopreq = s.stopreq := rfl
@[simp] theorem locateFailed_stream : (locateFailed s).stream = s.stream := rfl
@[simp] theorem locateFailed_pos : (locateFailed s).pos = s.pos := rfl
@[simp] theorem locateFailed_rxq : (locateFailed s).rxq = s.rxq := rfl
@[simp] theorem locateFailed_readQ : (locateFailed s).readQ = s.readQ := rfl
@[simp] theorem locateFailed_flushQ : (locateFailed s).flushQ = s.flushQ := rfl
@[simp] theorem locateFailed_draws : (locateFailed s).draws = s.draws := rfl
@[simp] theorem locateFailed_inputs : (locateFailed s).inputs = s.inputs := rfl
@[simp] theorem locateFailed_port : (locateFailed s).port = s.port := rfl
@[simp] theorem locateFailed_trace : (locateFailed s).trace = s.trace := rfl

/-! `advance`: only `PHASE` moves, and only from the phase it names. -/

@[simp] theorem advance_window (p q : Phase) : (advance p q s).window = s.window := by unfold advance; split <;> rfl
@[simp] theorem advance_found (p q : Phase) : (advance p q s).found = s.found := by unfold advance; split <;> rfl
@[simp] theorem advance_off (p q : Phase) : (advance p q s).off = s.off := by unfold advance; split <;> rfl
@[simp] theorem advance_cand (p q : Phase) : (advance p q s).cand = s.cand := by unfold advance; split <;> rfl
@[simp] theorem advance_sum (p q : Phase) : (advance p q s).sum = s.sum := by unfold advance; split <;> rfl
@[simp] theorem advance_sumok (p q : Phase) : (advance p q s).sumok = s.sumok := by unfold advance; split <;> rfl
@[simp] theorem advance_meas (p q : Phase) : (advance p q s).meas = s.meas := by unfold advance; split <;> rfl
@[simp] theorem advance_status (p q : Phase) : (advance p q s).status = s.status := by unfold advance; split <;> rfl
@[simp] theorem advance_info (p q : Phase) : (advance p q s).info = s.info := by unfold advance; split <;> rfl
theorem advance_phase (p q : Phase) : (advance p q s).phase = if s.atOp p then q else s.phase := by
  unfold advance; split <;> rfl
@[simp] theorem advance_seq (p q : Phase) : (advance p q s).seq = s.seq := by unfold advance; split <;> rfl
@[simp] theorem advance_stopreq (p q : Phase) : (advance p q s).stopreq = s.stopreq := by unfold advance; split <;> rfl
@[simp] theorem advance_stream (p q : Phase) : (advance p q s).stream = s.stream := by unfold advance; split <;> rfl
@[simp] theorem advance_pos (p q : Phase) : (advance p q s).pos = s.pos := by unfold advance; split <;> rfl
@[simp] theorem advance_rxq (p q : Phase) : (advance p q s).rxq = s.rxq := by unfold advance; split <;> rfl
@[simp] theorem advance_readQ (p q : Phase) : (advance p q s).readQ = s.readQ := by unfold advance; split <;> rfl
@[simp] theorem advance_flushQ (p q : Phase) : (advance p q s).flushQ = s.flushQ := by unfold advance; split <;> rfl
@[simp] theorem advance_draws (p q : Phase) : (advance p q s).draws = s.draws := by unfold advance; split <;> rfl
@[simp] theorem advance_inputs (p q : Phase) : (advance p q s).inputs = s.inputs := by unfold advance; split <;> rfl
@[simp] theorem advance_port (p q : Phase) : (advance p q s).port = s.port := by unfold advance; split <;> rfl
@[simp] theorem advance_trace (p q : Phase) : (advance p q s).trace = s.trace := by unfold advance; split <;> rfl

/-! `succeed` -/

@[simp] theorem succeed_window (o : Option (Fin 30)) (m : Measurement) : (succeed o m s).window = s.window := rfl
@[simp] theorem succeed_found (o : Option (Fin 30)) (m : Measurement) : (succeed o m s).found = s.found := rfl
@[simp] theorem succeed_off (o : Option (Fin 30)) (m : Measurement) : (succeed o m s).off = s.off := rfl
@[simp] theorem succeed_cand (o : Option (Fin 30)) (m : Measurement) : (succeed o m s).cand = s.cand := rfl
@[simp] theorem succeed_sum (o : Option (Fin 30)) (m : Measurement) : (succeed o m s).sum = s.sum := rfl
@[simp] theorem succeed_sumok (o : Option (Fin 30)) (m : Measurement) : (succeed o m s).sumok = s.sumok := rfl
@[simp] theorem succeed_meas (o : Option (Fin 30)) (m : Measurement) : (succeed o m s).meas = s.meas.validate := rfl
@[simp] theorem succeed_status (o : Option (Fin 30)) (m : Measurement) : (succeed o m s).status = some .ok := rfl
@[simp] theorem succeed_info (o : Option (Fin 30)) (m : Measurement) : (succeed o m s).info = some (.record o m) := rfl
@[simp] theorem succeed_phase (o : Option (Fin 30)) (m : Measurement) : (succeed o m s).phase = s.phase := rfl
@[simp] theorem succeed_seq (o : Option (Fin 30)) (m : Measurement) : (succeed o m s).seq = s.seq := rfl
@[simp] theorem succeed_stopreq (o : Option (Fin 30)) (m : Measurement) : (succeed o m s).stopreq = s.stopreq := rfl
@[simp] theorem succeed_stream (o : Option (Fin 30)) (m : Measurement) : (succeed o m s).stream = s.stream := rfl
@[simp] theorem succeed_pos (o : Option (Fin 30)) (m : Measurement) : (succeed o m s).pos = s.pos := rfl
@[simp] theorem succeed_rxq (o : Option (Fin 30)) (m : Measurement) : (succeed o m s).rxq = s.rxq := rfl
@[simp] theorem succeed_readQ (o : Option (Fin 30)) (m : Measurement) : (succeed o m s).readQ = s.readQ := rfl
@[simp] theorem succeed_flushQ (o : Option (Fin 30)) (m : Measurement) : (succeed o m s).flushQ = s.flushQ := rfl
@[simp] theorem succeed_draws (o : Option (Fin 30)) (m : Measurement) : (succeed o m s).draws = s.draws := rfl
@[simp] theorem succeed_inputs (o : Option (Fin 30)) (m : Measurement) : (succeed o m s).inputs = s.inputs := rfl
@[simp] theorem succeed_port (o : Option (Fin 30)) (m : Measurement) : (succeed o m s).port = s.port := rfl
@[simp] theorem succeed_trace (o : Option (Fin 30)) (m : Measurement) : (succeed o m s).trace = s.trace := rfl

/-! `takeFailure`, in every mode -/

@[simp] theorem takeFailure_status (k : Status) (i : Info) : (takeFailure k i s).status = some k := by unfold takeFailure; split <;> rfl
@[simp] theorem takeFailure_info (k : Status) (i : Info) : (takeFailure k i s).info = some i := by unfold takeFailure; split <;> rfl
@[simp] theorem takeFailure_meas (k : Status) (i : Info) : (takeFailure k i s).meas = MeasRegs.empty := by unfold takeFailure; split <;> rfl
@[simp] theorem takeFailure_phase (k : Status) (i : Info) : (takeFailure k i s).phase = s.phase := by unfold takeFailure; split <;> rfl
@[simp] theorem takeFailure_stopreq (k : Status) (i : Info) : (takeFailure k i s).stopreq = s.stopreq := by unfold takeFailure; split <;> rfl
@[simp] theorem takeFailure_stream (k : Status) (i : Info) : (takeFailure k i s).stream = s.stream := by unfold takeFailure; split <;> rfl
@[simp] theorem takeFailure_pos (k : Status) (i : Info) : (takeFailure k i s).pos = s.pos := by unfold takeFailure; split <;> rfl
@[simp] theorem takeFailure_rxq (k : Status) (i : Info) : (takeFailure k i s).rxq = s.rxq := by unfold takeFailure; split <;> rfl
@[simp] theorem takeFailure_readQ (k : Status) (i : Info) : (takeFailure k i s).readQ = s.readQ := by unfold takeFailure; split <;> rfl
@[simp] theorem takeFailure_flushQ (k : Status) (i : Info) : (takeFailure k i s).flushQ = s.flushQ := by unfold takeFailure; split <;> rfl
@[simp] theorem takeFailure_draws (k : Status) (i : Info) : (takeFailure k i s).draws = s.draws := by unfold takeFailure; split <;> rfl
@[simp] theorem takeFailure_inputs (k : Status) (i : Info) : (takeFailure k i s).inputs = s.inputs := by unfold takeFailure; split <;> rfl
@[simp] theorem takeFailure_port (k : Status) (i : Info) : (takeFailure k i s).port = s.port := by unfold takeFailure; split <;> rfl
@[simp] theorem takeFailure_trace (k : Status) (i : Info) : (takeFailure k i s).trace = s.trace := by unfold takeFailure; split <;> rfl

/-! `takeFatal`, in every mode -/

@[simp] theorem takeFatal_window : (takeFatal s).window = none := by unfold takeFatal; split <;> rfl
@[simp] theorem takeFatal_found : (takeFatal s).found = none := by unfold takeFatal; split <;> rfl
@[simp] theorem takeFatal_off : (takeFatal s).off = none := by unfold takeFatal; split <;> rfl
@[simp] theorem takeFatal_cand : (takeFatal s).cand = none := by unfold takeFatal; split <;> rfl
@[simp] theorem takeFatal_sum : (takeFatal s).sum = none := by unfold takeFatal; split <;> rfl
@[simp] theorem takeFatal_sumok : (takeFatal s).sumok = none := by unfold takeFatal; split <;> rfl
@[simp] theorem takeFatal_meas : (takeFatal s).meas = MeasRegs.empty := by unfold takeFatal; split <;> rfl
@[simp] theorem takeFatal_status : (takeFatal s).status = some .transportFailure := by unfold takeFatal; split <;> rfl
@[simp] theorem takeFatal_info : (takeFatal s).info = none := by unfold takeFatal; split <;> rfl
@[simp] theorem takeFatal_stopreq : (takeFatal s).stopreq = s.stopreq := by unfold takeFatal; split <;> rfl
@[simp] theorem takeFatal_stream : (takeFatal s).stream = s.stream := by unfold takeFatal; split <;> rfl
@[simp] theorem takeFatal_pos : (takeFatal s).pos = s.pos := by unfold takeFatal; split <;> rfl
@[simp] theorem takeFatal_rxq : (takeFatal s).rxq = s.rxq := by unfold takeFatal; split <;> rfl
@[simp] theorem takeFatal_readQ : (takeFatal s).readQ = s.readQ := by unfold takeFatal; split <;> rfl
@[simp] theorem takeFatal_flushQ : (takeFatal s).flushQ = s.flushQ := by unfold takeFatal; split <;> rfl
@[simp] theorem takeFatal_draws : (takeFatal s).draws = s.draws := by unfold takeFatal; split <;> rfl
@[simp] theorem takeFatal_inputs : (takeFatal s).inputs = s.inputs := by unfold takeFatal; split <;> rfl
@[simp] theorem takeFatal_port : (takeFatal s).port = s.port := by unfold takeFatal; split <;> rfl

/-! `iterationBoundary`, whether or not a stop is pending -/

@[simp] theorem iterationBoundary_window : (iterationBoundary s).window = none := by unfold iterationBoundary; split <;> rfl
@[simp] theorem iterationBoundary_found : (iterationBoundary s).found = none := by unfold iterationBoundary; split <;> rfl
@[simp] theorem iterationBoundary_off : (iterationBoundary s).off = none := by unfold iterationBoundary; split <;> rfl
@[simp] theorem iterationBoundary_cand : (iterationBoundary s).cand = none := by unfold iterationBoundary; split <;> rfl
@[simp] theorem iterationBoundary_sum : (iterationBoundary s).sum = none := by unfold iterationBoundary; split <;> rfl
@[simp] theorem iterationBoundary_sumok : (iterationBoundary s).sumok = none := by unfold iterationBoundary; split <;> rfl
@[simp] theorem iterationBoundary_meas : (iterationBoundary s).meas = MeasRegs.empty := by unfold iterationBoundary; split <;> rfl
@[simp] theorem iterationBoundary_info : (iterationBoundary s).info = none := by unfold iterationBoundary; split <;> rfl
@[simp] theorem iterationBoundary_seq : (iterationBoundary s).seq = .op := by unfold iterationBoundary; split <;> rfl
@[simp] theorem iterationBoundary_stopreq : (iterationBoundary s).stopreq = s.stopreq := by unfold iterationBoundary; split <;> rfl
@[simp] theorem iterationBoundary_stream : (iterationBoundary s).stream = s.stream := by unfold iterationBoundary; split <;> rfl
@[simp] theorem iterationBoundary_pos : (iterationBoundary s).pos = s.pos := by unfold iterationBoundary; split <;> rfl
@[simp] theorem iterationBoundary_rxq : (iterationBoundary s).rxq = s.rxq := by unfold iterationBoundary; split <;> rfl
@[simp] theorem iterationBoundary_readQ : (iterationBoundary s).readQ = s.readQ := by unfold iterationBoundary; split <;> rfl
@[simp] theorem iterationBoundary_flushQ : (iterationBoundary s).flushQ = s.flushQ := by unfold iterationBoundary; split <;> rfl
@[simp] theorem iterationBoundary_draws : (iterationBoundary s).draws = s.draws := by unfold iterationBoundary; split <;> rfl
@[simp] theorem iterationBoundary_inputs : (iterationBoundary s).inputs = s.inputs := by unfold iterationBoundary; split <;> rfl
@[simp] theorem iterationBoundary_port : (iterationBoundary s).port = s.port := by unfold iterationBoundary; split <;> rfl

/-! `endDecodeAttempt` -/

@[simp] theorem endDecodeAttempt_window (p : Packet) (off : Option (Fin 30)) : (endDecodeAttempt p off s).window = s.window := by unfold endDecodeAttempt; split <;> rfl
@[simp] theorem endDecodeAttempt_found (p : Packet) (off : Option (Fin 30)) : (endDecodeAttempt p off s).found = s.found := by unfold endDecodeAttempt; split <;> rfl
@[simp] theorem endDecodeAttempt_sum (p : Packet) (off : Option (Fin 30)) : (endDecodeAttempt p off s).sum = s.sum := by unfold endDecodeAttempt; split <;> rfl
@[simp] theorem endDecodeAttempt_sumok (p : Packet) (off : Option (Fin 30)) : (endDecodeAttempt p off s).sumok = s.sumok := by unfold endDecodeAttempt; split <;> rfl
@[simp] theorem endDecodeAttempt_validate (p : Packet) (off : Option (Fin 30)) : (endDecodeAttempt p off s).meas.validate = s.meas.validate := by unfold endDecodeAttempt; split <;> rfl
theorem endDecodeAttempt_meas (p : Packet) (off : Option (Fin 30)) : (endDecodeAttempt p off s).meas = if s.atOp .decode then s.meas.validate else s.meas := by unfold endDecodeAttempt; split <;> rfl
@[simp] theorem endDecodeAttempt_seq (p : Packet) (off : Option (Fin 30)) : (endDecodeAttempt p off s).seq = s.seq := by unfold endDecodeAttempt; split <;> rfl
@[simp] theorem endDecodeAttempt_stopreq (p : Packet) (off : Option (Fin 30)) : (endDecodeAttempt p off s).stopreq = s.stopreq := by unfold endDecodeAttempt; split <;> rfl
@[simp] theorem endDecodeAttempt_stream (p : Packet) (off : Option (Fin 30)) : (endDecodeAttempt p off s).stream = s.stream := by unfold endDecodeAttempt; split <;> rfl
@[simp] theorem endDecodeAttempt_pos (p : Packet) (off : Option (Fin 30)) : (endDecodeAttempt p off s).pos = s.pos := by unfold endDecodeAttempt; split <;> rfl
@[simp] theorem endDecodeAttempt_rxq (p : Packet) (off : Option (Fin 30)) : (endDecodeAttempt p off s).rxq = s.rxq := by unfold endDecodeAttempt; split <;> rfl
@[simp] theorem endDecodeAttempt_readQ (p : Packet) (off : Option (Fin 30)) : (endDecodeAttempt p off s).readQ = s.readQ := by unfold endDecodeAttempt; split <;> rfl
@[simp] theorem endDecodeAttempt_flushQ (p : Packet) (off : Option (Fin 30)) : (endDecodeAttempt p off s).flushQ = s.flushQ := by unfold endDecodeAttempt; split <;> rfl
@[simp] theorem endDecodeAttempt_draws (p : Packet) (off : Option (Fin 30)) : (endDecodeAttempt p off s).draws = s.draws := by unfold endDecodeAttempt; split <;> rfl
@[simp] theorem endDecodeAttempt_inputs (p : Packet) (off : Option (Fin 30)) : (endDecodeAttempt p off s).inputs = s.inputs := by unfold endDecodeAttempt; split <;> rfl
@[simp] theorem endDecodeAttempt_port (p : Packet) (off : Option (Fin 30)) : (endDecodeAttempt p off s).port = s.port := by unfold endDecodeAttempt; split <;> rfl
@[simp] theorem endDecodeAttempt_trace (p : Packet) (off : Option (Fin 30)) : (endDecodeAttempt p off s).trace = s.trace := by unfold endDecodeAttempt; split <;> rfl

/-! `emitState` -/

@[simp] theorem emitState_window (m : Measurement) : (emitState m s).window = s.window := rfl
@[simp] theorem emitState_found (m : Measurement) : (emitState m s).found = s.found := rfl
@[simp] theorem emitState_off (m : Measurement) : (emitState m s).off = s.off := rfl
@[simp] theorem emitState_cand (m : Measurement) : (emitState m s).cand = s.cand := rfl
@[simp] theorem emitState_sum (m : Measurement) : (emitState m s).sum = s.sum := rfl
@[simp] theorem emitState_sumok (m : Measurement) : (emitState m s).sumok = s.sumok := rfl
@[simp] theorem emitState_meas (m : Measurement) : (emitState m s).meas = MeasRegs.empty := rfl
@[simp] theorem emitState_status (m : Measurement) : (emitState m s).status = s.status := rfl
@[simp] theorem emitState_info (m : Measurement) : (emitState m s).info = s.info := rfl
@[simp] theorem emitState_phase (m : Measurement) : (emitState m s).phase = s.phase := rfl
@[simp] theorem emitState_seq (m : Measurement) : (emitState m s).seq = if s.atOp .emit then .report else s.seq := rfl
@[simp] theorem emitState_stopreq (m : Measurement) : (emitState m s).stopreq = s.stopreq := rfl
@[simp] theorem emitState_stream (m : Measurement) : (emitState m s).stream = s.stream := rfl
@[simp] theorem emitState_pos (m : Measurement) : (emitState m s).pos = s.pos := rfl
@[simp] theorem emitState_rxq (m : Measurement) : (emitState m s).rxq = s.rxq := rfl
@[simp] theorem emitState_readQ (m : Measurement) : (emitState m s).readQ = s.readQ := rfl
@[simp] theorem emitState_flushQ (m : Measurement) : (emitState m s).flushQ = s.flushQ := rfl
@[simp] theorem emitState_draws (m : Measurement) : (emitState m s).draws = s.draws := rfl
@[simp] theorem emitState_inputs (m : Measurement) : (emitState m s).inputs = s.inputs := rfl
@[simp] theorem emitState_port (m : Measurement) : (emitState m s).port = s.port := rfl
@[simp] theorem emitState_trace (m : Measurement) : (emitState m s).trace = s.trace ++ [.sinkEmit m] := rfl

/-! `afterReport` and `diagState`: only `PHASE` and its instant move, and the trace grows. -/

@[simp] theorem afterReport_window : (afterReport s).window = s.window := by unfold afterReport; split <;> (try split) <;> rfl
@[simp] theorem afterReport_found : (afterReport s).found = s.found := by unfold afterReport; split <;> (try split) <;> rfl
@[simp] theorem afterReport_off : (afterReport s).off = s.off := by unfold afterReport; split <;> (try split) <;> rfl
@[simp] theorem afterReport_cand : (afterReport s).cand = s.cand := by unfold afterReport; split <;> (try split) <;> rfl
@[simp] theorem afterReport_sum : (afterReport s).sum = s.sum := by unfold afterReport; split <;> (try split) <;> rfl
@[simp] theorem afterReport_sumok : (afterReport s).sumok = s.sumok := by unfold afterReport; split <;> (try split) <;> rfl
@[simp] theorem afterReport_meas : (afterReport s).meas = s.meas := by unfold afterReport; split <;> (try split) <;> rfl
@[simp] theorem afterReport_status : (afterReport s).status = s.status := by unfold afterReport; split <;> (try split) <;> rfl
@[simp] theorem afterReport_info : (afterReport s).info = s.info := by unfold afterReport; split <;> (try split) <;> rfl
@[simp] theorem afterReport_stopreq : (afterReport s).stopreq = s.stopreq := by unfold afterReport; split <;> (try split) <;> rfl
@[simp] theorem afterReport_stream : (afterReport s).stream = s.stream := by unfold afterReport; split <;> (try split) <;> rfl
@[simp] theorem afterReport_pos : (afterReport s).pos = s.pos := by unfold afterReport; split <;> (try split) <;> rfl
@[simp] theorem afterReport_rxq : (afterReport s).rxq = s.rxq := by unfold afterReport; split <;> (try split) <;> rfl
@[simp] theorem afterReport_readQ : (afterReport s).readQ = s.readQ := by unfold afterReport; split <;> (try split) <;> rfl
@[simp] theorem afterReport_flushQ : (afterReport s).flushQ = s.flushQ := by unfold afterReport; split <;> (try split) <;> rfl
@[simp] theorem afterReport_draws : (afterReport s).draws = s.draws := by unfold afterReport; split <;> (try split) <;> rfl
@[simp] theorem afterReport_inputs : (afterReport s).inputs = s.inputs := by unfold afterReport; split <;> (try split) <;> rfl
@[simp] theorem afterReport_port : (afterReport s).port = s.port := by unfold afterReport; split <;> (try split) <;> rfl
@[simp] theorem afterReport_trace : (afterReport s).trace = s.trace := by unfold afterReport; split <;> (try split) <;> rfl
@[simp] theorem diagState_window (k : Status) : (diagState k s).window = s.window := by simp [diagState]
@[simp] theorem diagState_found (k : Status) : (diagState k s).found = s.found := by simp [diagState]
@[simp] theorem diagState_off (k : Status) : (diagState k s).off = s.off := by simp [diagState]
@[simp] theorem diagState_cand (k : Status) : (diagState k s).cand = s.cand := by simp [diagState]
@[simp] theorem diagState_sum (k : Status) : (diagState k s).sum = s.sum := by simp [diagState]
@[simp] theorem diagState_sumok (k : Status) : (diagState k s).sumok = s.sumok := by simp [diagState]
@[simp] theorem diagState_meas (k : Status) : (diagState k s).meas = s.meas := by simp [diagState]
@[simp] theorem diagState_status (k : Status) : (diagState k s).status = s.status := by simp [diagState]
@[simp] theorem diagState_info (k : Status) : (diagState k s).info = s.info := by simp [diagState]
@[simp] theorem diagState_stopreq (k : Status) : (diagState k s).stopreq = s.stopreq := by simp [diagState]
@[simp] theorem diagState_stream (k : Status) : (diagState k s).stream = s.stream := by simp [diagState]
@[simp] theorem diagState_pos (k : Status) : (diagState k s).pos = s.pos := by simp [diagState]
@[simp] theorem diagState_rxq (k : Status) : (diagState k s).rxq = s.rxq := by simp [diagState]
@[simp] theorem diagState_readQ (k : Status) : (diagState k s).readQ = s.readQ := by simp [diagState]
@[simp] theorem diagState_flushQ (k : Status) : (diagState k s).flushQ = s.flushQ := by simp [diagState]
@[simp] theorem diagState_draws (k : Status) : (diagState k s).draws = s.draws := by simp [diagState]
@[simp] theorem diagState_inputs (k : Status) : (diagState k s).inputs = s.inputs := by simp [diagState]
@[simp] theorem diagState_port (k : Status) : (diagState k s).port = s.port := by simp [diagState]
@[simp] theorem diagState_trace (k : Status) : (diagState k s).trace = s.trace ++ [.diag k s.info] := by simp [diagState]

end Sys2Proof.Machine
end

