-- ==== Sys2Proof/Laws/Ops.lean ====
section
/-! SUPPORT. One lemma per shared operation that says what it can do, for the provers to cite instead of unfolding. -/

namespace Sys2Proof.Machine

/-! The operand sources. -/

theorem withWindow_of_windowAt {src : WinSrc} {s : State} {c : RawChunk} (f : RawChunk → State)
    (h : windowAt src s = some c) : withWindow src s f = .next (f c) := by
  cases src with
  | regs => simp only [windowAt] at h; simp [withWindow, h]
  | pins n w =>
    simp only [windowAt] at h
    split at h
    · rename_i hn; cases h; simp [withWindow, Config.windowLength, hn]
    · cases h

/-- Reading the packet an operation has. -/
theorem readPacket_of_packetAt {src : PktSrc} {s : State} {p : Packet}
    (k : Packet → Host.Outcome State Fault Refusal) (h : packetAt src s = some p) : readPacket src s k = k p := by
  cases src with
  | cand => simp only [packetAt] at h; simp [readPacket, h]
  | word q => simp only [packetAt] at h; cases h; rfl

/-- Reading the `OFF` an operation has. -/
theorem readOff_of_offAt {src : PktSrc} {s : State} {o : Option (Fin 30)}
    (k : Option (Fin 30) → Host.Outcome State Fault Refusal) (h : offAt src s = some o) : readOff src s k = k o := by
  cases src with
  | cand => simp only [offAt, Option.map_eq_some_iff] at h; obtain ⟨i, hi, rfl⟩ := h; simp [readOff, hi]
  | word q => simp only [offAt] at h; cases h; rfl

theorem withPacket_of_packetAt {src : PktSrc} {s : State} {p : Packet} (f : Packet → State)
    (h : packetAt src s = some p) : withPacket src s f = .next (f p) := readPacket_of_packetAt _ h

/-- An operation on a window that answers a next state had a window. -/
theorem withWindow_next {src : WinSrc} {s t : State} {f : RawChunk → State}
    (h : withWindow src s f = .next t) : ∃ c, windowAt src s = some c ∧ t = f c := by
  cases src with
  | regs =>
    simp only [withWindow] at h
    split at h
    · rename_i c hc; cases h; exact ⟨c, hc, rfl⟩
    · cases h
  | pins n w =>
    simp only [withWindow, Config.windowLength] at h
    split at h
    · rename_i hn; cases h; exact ⟨_, by simp [windowAt, hn], rfl⟩
    · cases h

/-- What reads a packet and answers a next state had one. -/
theorem readPacket_next {src : PktSrc} {s t : State} {k : Packet → Host.Outcome State Fault Refusal}
    (h : readPacket src s k = .next t) : ∃ p, packetAt src s = some p ∧ k p = .next t := by
  cases src with
  | cand =>
    simp only [readPacket] at h
    split at h
    · rename_i p hp; exact ⟨p, hp, h⟩
    · cases h
  | word q => exact ⟨q, rfl, h⟩

/-- What reads an `OFF` and answers a next state had one. -/
theorem readOff_next {src : PktSrc} {s t : State} {k : Option (Fin 30) → Host.Outcome State Fault Refusal}
    (h : readOff src s k = .next t) : ∃ o, offAt src s = some o ∧ k o = .next t := by
  cases src with
  | cand =>
    simp only [readOff] at h
    split at h
    · rename_i o ho; exact ⟨some o, by simp [offAt, ho], h⟩
    · cases h
  | word q => exact ⟨none, rfl, h⟩

/-- An operation on a packet that answers a next state had a packet. -/
theorem withPacket_next {src : PktSrc} {s t : State} {f : Packet → State}
    (h : withPacket src s f = .next t) : ∃ p, packetAt src s = some p ∧ t = f p := by
  obtain ⟨p, hp, hk⟩ := readPacket_next h
  cases hk
  exact ⟨p, hp, rfl⟩

/-- Everything CHKSUM does when it answers a next state: the packet passes, or its failure has an `OFF` to report. -/
theorem execChksum_next {src : PktSrc} {s t : State} (h : execChksum src s = .next t) :
    ∃ p off, packetAt src s = some p ∧ t = (stChksum p off s).conclude ∧
      (checksumOk p = false → offAt src s = some off) := by
  obtain ⟨p, hp, hk⟩ := readPacket_next h
  cases hc : checksumOk p with
  | true => simp only [hc, if_true] at hk; cases hk; exact ⟨p, none, hp, rfl, fun h => by simp [hc] at h⟩
  | false =>
    simp only [hc, Bool.false_eq_true, if_false] at hk
    obtain ⟨o, ho, hk⟩ := readOff_next hk
    cases hk
    exact ⟨p, o, hp, rfl, fun _ => ho⟩

/-- Everything DECODE does when it answers a next state; in its place it had an `OFF` to report. -/
theorem execDecode_next {src : PktSrc} {s t : State} (h : execDecode src s = .next t) :
    ∃ p off, packetAt src s = some p ∧ t = stDecode p off s ∧
      (s.atOp .decode = true → offAt src s = some off) := by
  obtain ⟨p, hp, hk⟩ := readPacket_next h
  cases hd : s.atOp .decode with
  | false => simp only [hd, Bool.false_eq_true, if_false] at hk; cases hk; exact ⟨p, none, hp, rfl, fun h => by simp at h⟩
  | true =>
    simp only [hd, if_true] at hk
    obtain ⟨o, ho, hk⟩ := readOff_next hk
    cases hk
    exact ⟨p, o, hp, rfl, fun _ => ho⟩

/-! The stream. -/

@[simp] theorem bytesAt_length (m : Memory) (a k : Nat) : (Memory.bytesAt m a k).length = k := by
  simp [Memory.bytesAt]

@[simp] theorem bytesAt_getElem (m : Memory) (a k j : Nat) (h : j < (Memory.bytesAt m a k).length) :
    (Memory.bytesAt m a k)[j] = Memory.byteAt m (a + j) := by
  simp [Memory.bytesAt]

@[simp] theorem readChunk_bytes (s : State) (k : Fin 33) :
    (readChunk s k).bytes = Memory.bytesAt s.stream s.pos k.val := rfl

/-- The known bytes written down from offset `a` lie at offsets from `a` on. -/
theorem ofBytes_keys_ge (bs : List Byte) (a : Nat) : ∀ x ∈ Memory.ofBytes a bs, a ≤ x.1 := by
  induction bs generalizing a with
  | nil => simp [Memory.ofBytes]
  | cons b bs ih =>
    intro x hx
    simp only [Memory.ofBytes, List.mem_cons] at hx
    rcases hx with rfl | hx
    · exact Nat.le_refl _
    · exact Nat.le_of_succ_le (ih (a + 1) x hx)

/-- Writing a stream down gives the canonical form. -/
theorem ofBytes_wf (bs : List Byte) (a : Nat) : Memory.wf (Memory.ofBytes a bs) = true := by
  induction bs generalizing a with
  | nil => simp [Memory.ofBytes, Memory.wf]
  | cons b bs ih =>
    have h := ih (a + 1)
    simp only [Memory.wf, decide_eq_true_eq] at h ⊢
    exact List.pairwise_cons.2 ⟨fun x hx => ofBytes_keys_ge bs (a + 1) x hx, h⟩

/-- STREAM right after reset is in canonical form. -/
theorem reset_stream_wf : Memory.wf State.reset.stream = true := by decide

/-! Windows, slices, the search. -/

theorem fullWindow_some {c : RawChunk} {w : Window} (h : fullWindow c = some w) : w.toList = c.bytes := by
  unfold fullWindow at h
  split at h
  · cases h; simp
  · cases h

theorem fullWindow_of_length {c : RawChunk} (h : c.bytes.length = 32) :
    ∃ w : Window, fullWindow c = some w ∧ w.toList = c.bytes := by
  refine ⟨⟨c.bytes.toArray, by simp [h]⟩, by simp [fullWindow, h], by simp⟩

theorem fullWindow_none {c : RawChunk} : fullWindow c = none ↔ c.bytes.length < 32 := by
  have := c.length_le
  unfold fullWindow
  split <;> simp <;> omega

theorem window_getElem? (w : Window) (i : Nat) (h : i < 32) : w.toList[i]? = some w[i] := by
  rw [List.getElem?_eq_getElem (by simpa using h)]
  simp

theorem hit_iff (w : Window) (i : Fin 30) : hit w i = true ↔ HitAt w.toList i.val := by
  have := i.isLt
  rw [HitAt, window_getElem? w i.val (by omega), window_getElem? w (i.val + 1) (by omega),
    window_getElem? w (i.val + 2) (by omega)]
  simp [hit, and_assoc]

/-- A hit lies wholly inside the bytes. -/
theorem HitAt.lt {bs : List Byte} {i : Nat} (h : HitAt bs i) : i + 2 < bs.length :=
  (List.getElem?_eq_some_iff.1 h.2.2).1

theorem slice_toList (w : Window) (off : Nat) (h : off + 16 ≤ 32) :
    (slice w off h).toList = (w.toList.drop off).take 16 := by
  apply List.ext_getElem
  · simp; omega
  · intro k h1 h2
    simp [slice]

theorem headerMatches_iff (p : Packet) :
    headerMatches p = true ↔ p[0] = 0x57#8 ∧ p[1] = 0x00#8 ∧ p[2] = 0xFF#8 := by
  simp [headerMatches, and_assoc]

/-- The decoder's header check and the machine's agree. -/
theorem hasHeader_eq_headerMatches (p : Packet) : Packet.hasHeader p = headerMatches p := rfl

/-! Sums. -/

theorem byteSum_eq_sum (bs : List Byte) : byteSum bs = (bs.map BitVec.toNat).sum := by
  induction bs with
  | nil => rfl
  | cons b bs ih => simp [byteSum, ih]

@[simp] theorem checksum_toNat (p : Packet) :
    (checksum p).toNat = ((p.toList.take 15).map BitVec.toNat).sum % 256 := by
  simp [checksum, byteSum_eq_sum]

theorem checksumOk_iff (p : Packet) :
    checksumOk p = true ↔ ((p.toList.take 15).map BitVec.toNat).sum % 256 = p[15].toNat := by
  rw [checksumOk, beq_iff_eq, ← BitVec.toNat_inj, checksum_toNat]

/-! Records. -/

@[simp] theorem record?_ofRecord (m : Measurement) : (MeasRegs.ofRecord m).record? = some m := rfl

@[simp] theorem record?_empty : MeasRegs.empty.record? = none := rfl

@[simp] theorem ofRecord_validated (m : Measurement) : (MeasRegs.ofRecord m).validated = true := rfl

@[simp] theorem unvalidated_validated (m : Measurement) : (MeasRegs.unvalidated m).validated = false := rfl

@[simp] theorem record?_unvalidated (m : Measurement) : (MeasRegs.unvalidated m).record? = some m := rfl

@[simp] theorem validate_validated (r : MeasRegs) : r.validate.validated = true := rfl

@[simp] theorem validate_validate (r : MeasRegs) : r.validate.validate = r.validate := rfl

theorem record?_some {r : MeasRegs} {m : Measurement} (h : r.record? = some m) : r.validate = MeasRegs.ofRecord m := by
  rcases r with ⟨_ | i, _ | t, _ | d, _ | st, _ | g, _ | a, v⟩ <;> simp [MeasRegs.record?] at h
  cases h; rfl

/-- A record can be read exactly where a validated one stands in `MEAS` beside `STATUS` OK (R18, R22, R93). -/
theorem stateRecord?_iff {s : State} {m : Measurement} :
    s.record? = some m ↔ s.status = some .ok ∧ s.meas = MeasRegs.ofRecord m := by
  unfold State.record?
  constructor
  · intro h
    split at h
    · rename_i hs
      have hm := record?_some h
      refine ⟨hs.1, ?_⟩
      rw [← hm, MeasRegs.validate, ← hs.2]
    · cases h
  · rintro ⟨h1, h2⟩
    simp [h1, h2]

/-- What is not validated cannot be read (R93). -/
theorem stateRecord?_none {s : State} (h : s.meas.validated = false) : s.record? = none := by
  simp [State.record?, h]

/-- EMIT of what is not validated stops (R93, R22). -/
theorem execEmit_unvalidated {s : State} (h : s.meas.validated = false) : execEmit s = .fault (.noValue .meas) := by
  simp [execEmit, stateRecord?_none h]

/-- The six extractions write the whole record, not yet validated. -/
@[simp] theorem putAll_eq (p : Packet) (r : MeasRegs) :
    putAll p r = MeasRegs.unvalidated (recordOf p) := rfl

@[simp] theorem validate_ofRecord (m : Measurement) : (MeasRegs.ofRecord m).validate = MeasRegs.ofRecord m := rfl

@[simp] theorem validate_unvalidated (m : Measurement) :
    (MeasRegs.unvalidated m).validate = MeasRegs.ofRecord m := rfl

/-! The sequencer. -/

theorem atOp_iff (s : State) (p : Phase) : s.atOp p = true ↔ s.phase = p ∧ s.seq = .op := by
  simp [State.atOp]

/-- Outside an iteration the sequencer is at no operation of one. -/
theorem atOp_not_running {s : State} (hr : s.phase.running = false) {p : Phase} (hp : p.running = true) :
    s.atOp p = false := by
  rw [← Bool.not_eq_true, atOp_iff]
  rintro ⟨h, _⟩
  rw [h, hp] at hr
  cases hr

/-- A stage outside its place leaves `PHASE` alone. -/
theorem advance_of_not {s : State} {p q : Phase} (h : s.atOp p = false) : advance p q s = s :=
  if_neg (c := s.atOp p = true) (by simp [h])

/-- CHKSUM on a candidate of a window: whether it passes or fails, one state. -/
theorem execChksum_cand {s : State} {p : Packet} {o : Fin 30} (hp : s.cand = some p) (ho : s.off = some o) :
    execChksum .cand s = .next (stChksum p (some o) s).conclude := by
  cases hc : checksumOk p <;> simp [execChksum, readPacket, readOff, hp, ho, hc, stChksum]

/-- What DECODE leaves outside its place in the sequence. -/
theorem stDecode_direct {s : State} (p : Packet) (off : Option (Fin 30)) (h : s.atOp .decode = false) :
    stDecode p off s = { s with meas := MeasRegs.unvalidated (recordOf p) } := by
  exact if_neg (c := s.atOp .decode = true) (by simp [h])

/-- What DECODE leaves in its place in the sequence. -/
theorem stDecode_staged {s : State} (p : Packet) (off : Option (Fin 30)) (h : s.atOp .decode = true) :
    stDecode p off s = { s with meas := MeasRegs.ofRecord (recordOf p), phase := .emit, status := some .ok, info := some (.record off (recordOf p)), cand := none, off := none } := by
  exact if_pos (c := s.atOp .decode = true) h

/-- DECODE of a candidate of a window: in its place in the sequence or not, one state. -/
theorem execDecode_cand {s : State} {p : Packet} {o : Fin 30} (hp : s.cand = some p) (ho : s.off = some o) :
    execDecode .cand s = .next (stDecode p (some o) s) := by
  cases hd : s.atOp .decode with
  | false => simp [execDecode, readPacket, hp, hd, stDecode_direct p _ hd]
  | true => simp [execDecode, readPacket, readOff, hp, ho, hd]

/-- Everything READ can do: it fails, or it returns `k` bytes. -/
theorem readState_cases (s : State) :
    (nextReadAnswer s = .failure ∧ readState s = readFailed s) ∨
    (∃ k, nextReadAnswer s = .bytes k ∧ readState s = readDone k s) := by
  unfold readState
  cases h : nextReadAnswer s with
  | failure => exact .inl ⟨rfl, rfl⟩
  | bytes k => exact .inr ⟨k, rfl, rfl⟩

/-- Everything FLUSH can do: it fails, or it is done. -/
theorem flushState_cases (s : State) :
    (nextFlushAnswer s = .failure ∧ flushState s = flushFailed s) ∨
    (∃ late, nextFlushAnswer s = .done late ∧ flushState s = flushDone late s) := by
  unfold flushState
  cases h : nextFlushAnswer s with
  | failure => exact .inl ⟨rfl, rfl⟩
  | done late => exact .inr ⟨late, rfl, rfl⟩

/-- Everything LOCATE computes, one case each (R70). -/
theorem locate_cases (c : RawChunk) :
    (c.bytes.length < 32 ∧ locate c = .incomplete c.bytes.length) ∨
    (∃ w, fullWindow c = some w ∧ firstHit w = none ∧ locate c = .noHit) ∨
    (∃ w o, fullWindow c = some w ∧ firstHit w = some o ∧ 16 < o.val ∧ locate c = .lateHit o) ∨
    (∃ w o h, fullWindow c = some w ∧ firstHit w = some o ∧ locate c = .found o (slice w o.val h)) := by
  unfold locate
  cases hw : fullWindow c with
  | none => exact .inl ⟨fullWindow_none.1 hw, rfl⟩
  | some w =>
    cases hf : firstHit w with
    | none => exact .inr (.inl ⟨w, rfl, hf, by simp [hf]⟩)
    | some o =>
      by_cases h : o.val + 16 ≤ 32
      · exact .inr (.inr (.inr ⟨w, o, h, rfl, hf, by simp [hf, h]⟩))
      · exact .inr (.inr (.inl ⟨w, o, rfl, hf, by omega, by simp [hf, h]⟩))

/-- Everything a step can do: an input lands, or the core moves. -/
theorem step_cases {s t : State} (h : step s = .next t) :
    (s.inputs = [] ∧ coreStep s = .next t) ∨
    (∃ is, s.inputs = .pass :: is ∧ coreStep { s with inputs := is } = .next t) ∨
    (∃ i is, s.inputs = i :: is ∧ i ≠ .pass ∧ t = applyInput i { s with inputs := is }) := by
  unfold step at h
  split at h
  · exact .inl ⟨‹_›, h⟩
  · exact .inr (.inl ⟨_, ‹_›, h⟩)
  · rename_i i is hp hi
    cases h
    exact .inr (.inr ⟨i, is, ‹_›, hp, rfl⟩)

/-- Everything the core's move can be. -/
theorem coreStep_cases {s t : State} (h : coreStep s = .next t) :
    (∃ i, fetch s = .stage i ∧ exec i s = .next t) ∨
    (∃ i, fetch s = .direct i ∧ exec i { s with port := [] } = .next t) ∨
    (fetch s = .boundary ∧ t = iterationBoundary s) ∨
    (fetch s = .wait ∧ t = s) := by
  unfold coreStep at h
  split at h
  · exact .inl ⟨_, ‹_›, h⟩
  · exact .inr (.inl ⟨_, ‹_›, h⟩)
  · cases h
  · cases h; exact .inr (.inr (.inl ⟨‹_›, rfl⟩))
  · cases h; exact .inr (.inr (.inr ⟨‹_›, rfl⟩))

/-- Where the sequencer fetches a stage: which operation, at which `PHASE` and instant. -/
theorem fetch_stage {s : State} {i : Instr} (h : fetch s = .stage i) :
    (s.seq = .report ∧ i = .diag) ∨
    (s.seq = .op ∧ ((s.phase = .read ∧ i = .read) ∨ (s.phase = .locate ∧ i = .locate .regs) ∨
      (s.phase = .chksum ∧ i = .chksum .cand) ∨ (s.phase = .decode ∧ i = .decode .cand) ∨
      (s.phase = .emit ∧ i = .emit) ∨ (s.phase = .flush ∧ i = .flush))) := by
  unfold fetch at h
  split at h
  · cases h
  · split at h
    · cases h
    · cases h; exact .inl ⟨‹_›, rfl⟩
    · refine .inr ⟨‹_›, ?_⟩
      split at h
      · unfold fetchRequest at h
        split at h <;> try split at h
        all_goals cases h
      · cases hp : s.phase <;> simp only [hp, fetchStage] at h <;> cases h <;> simp

end Sys2Proof.Machine
end

