-- ==== Sys2Proof/Laws/PerInstr.lean ====
section
/-! SUPPORT. Statements about every operation as syntax, one lemma per constructor. -/

namespace Sys2Proof.Laws.FormatLength

/-- An operation's encoding has the length of one of the formats: a selector, H3 (30_encoding R56), P16 (R50), P16 with
a selector, or the window form (log 1). -/
def Statement (i : Instr) : Prop := (encode i).length ∈ [1, 3, 16, 17, 34]

theorem pkt_length (sel : Byte) (src : PktSrc) : (encodePkt sel src).length ∈ [1, 3, 16, 17, 34] := by
  cases src <;> simp [encodePkt]

theorem iter : Statement .iter := by simp [Statement, encode]
theorem read : Statement .read := by simp [Statement, encode]
theorem locate (src : WinSrc) : Statement (.locate src) := by cases src <;> simp [Statement, encode, encodePins]
theorem frame (src : WinSrc) : Statement (.frame src) := by cases src <;> simp [Statement, encode, encodePins]
theorem chksum (src : PktSrc) : Statement (.chksum src) := pkt_length _ src
theorem decode16 (b : Packet) : Statement (.decode16 b) := by simp [Statement, encode]
theorem extId (src : PktSrc) : Statement (.extId src) := pkt_length _ src
theorem extTime (src : PktSrc) : Statement (.extTime src) := pkt_length _ src
theorem extDist (src : PktSrc) : Statement (.extDist src) := pkt_length _ src
theorem extStatus (src : PktSrc) : Statement (.extStatus src) := pkt_length _ src
theorem extStrength (src : PktSrc) : Statement (.extStrength src) := pkt_length _ src
theorem extAcc (src : PktSrc) : Statement (.extAcc src) := pkt_length _ src
theorem decode (src : PktSrc) : Statement (.decode src) := pkt_length _ src
theorem emit : Statement .emit := by simp [Statement, encode]
theorem diag : Statement .diag := by simp [Statement, encode]
theorem flush : Statement .flush := by simp [Statement, encode]

end Sys2Proof.Laws.FormatLength
end

