-- ==== Sys2Proof/Laws/Quiet.lean ====
section
/-! SUPPORT. What the datapath operations cannot do: LOCATE, CHKSUM, EXT.*, DECODE, FRAME and DECODE16 issue no
transaction, draw nothing, move no stream, and leave `STOPREQ`, the inputs and the run's being in progress alone. -/

namespace Sys2Proof.Machine

/-- Nothing but the registers, the outcome and the place inside a running iteration changed. -/
structure Quiet (s t : State) : Prop where
  trace : t.trace = s.trace
  stopreq : t.stopreq = s.stopreq
  stream : t.stream = s.stream
  pos : t.pos = s.pos
  rxq : t.rxq = s.rxq
  readQ : t.readQ = s.readQ
  flushQ : t.flushQ = s.flushQ
  draws : t.draws = s.draws
  inputs : t.inputs = s.inputs
  port : t.port = s.port
  running : t.phase.running = s.phase.running
  outside : s.phase.running = false → t.phase = s.phase ∧ t.seq = s.seq

theorem Quiet.refl (s : State) : Quiet s s := by constructor <;> simp

theorem Quiet.trans {s t u : State} (h : Quiet s t) (k : Quiet t u) : Quiet s u where
  trace := k.trace.trans h.trace
  stopreq := k.stopreq.trans h.stopreq
  stream := k.stream.trans h.stream
  pos := k.pos.trans h.pos
  rxq := k.rxq.trans h.rxq
  readQ := k.readQ.trans h.readQ
  flushQ := k.flushQ.trans h.flushQ
  draws := k.draws.trans h.draws
  inputs := k.inputs.trans h.inputs
  port := k.port.trans h.port
  running := k.running.trans h.running
  outside := fun hr =>
    let ho := h.outside hr
    let ko := k.outside (h.running.trans hr)
    ⟨ko.1.trans ho.1, ko.2.trans ho.2⟩

theorem Quiet.sameEnvironment {s t : State} (h : Quiet s t) : SameEnvironment s t :=
  ⟨h.stream, h.pos, h.rxq, h.readQ, h.flushQ, h.draws, h.inputs, h.port⟩

/-- The state an operation leaves, whether it returned or failed. -/
def OpResult.state {α : Type} : OpResult α → State
  | .ok _ s => s
  | .fail _ _ s => s

theorem advance_quiet (p q : Phase) (s : State) (h : p.running = true) (k : q.running = true) :
    Quiet s (advance p q s) := by
  constructor <;> simp only [advance_trace, advance_stopreq, advance_stream, advance_pos, advance_rxq, advance_readQ,
    advance_flushQ, advance_draws, advance_inputs, advance_port, advance_seq, advance_phase]
  · split
    · rename_i hp; rw [k, ((atOp_iff s p).1 hp).1, h]
    · rfl
  · intro hr
    rw [if_neg]
    · exact ⟨rfl, trivial⟩
    · intro hp; rw [((atOp_iff s p).1 hp).1, h] at hr; cases hr

theorem takeFailure_quiet (k : Status) (i : Info) (s : State) : Quiet s (takeFailure k i s) := by
  constructor <;> simp
  intro h; simp [takeFailure, h]

theorem conclude_quiet {α : Type} {s : State} {r : OpResult α} (h : Quiet s r.state) : Quiet s r.conclude := by
  cases r with
  | ok a t => exact h
  | fail k i t => exact h.trans (takeFailure_quiet k i t)

theorem stLocate_quiet (c : RawChunk) (s : State) : Quiet s (stLocate c s).state := by
  unfold stLocate
  cases locate c with
  | incomplete n => constructor <;> simp [OpResult.state]
  | noHit => constructor <;> simp [OpResult.state]
  | lateHit o => constructor <;> simp [OpResult.state]
  | found o p =>
    refine Quiet.trans ?_ (advance_quiet .locate .chksum _ rfl rfl)
    constructor <;> simp

theorem stChksum_quiet (p : Packet) (off : Option (Fin 30)) (s : State) : Quiet s (stChksum p off s).state := by
  unfold stChksum
  split
  · refine Quiet.trans ?_ (advance_quiet .chksum .decode _ rfl rfl)
    constructor <;> simp
  · constructor <;> simp [OpResult.state]

theorem stDecode_quiet (p : Packet) (off : Option (Fin 30)) (s : State) : Quiet s (stDecode p off s) := by
  cases h : s.atOp .decode with
  | false => rw [stDecode_direct p off h]; constructor <;> simp
  | true =>
    rw [stDecode_staged p off h]
    have hp := ((atOp_iff s .decode).1 h).1
    constructor <;> simp [hp, Phase.running]

theorem andThen_quiet {α β : Type} {s : State} {r : OpResult α} {f : α → State → OpResult β}
    (h : Quiet s r.state) (k : ∀ a t, Quiet t (f a t).state) : Quiet s (r.andThen f).state := by
  cases r with
  | ok a t => exact Quiet.trans h (k a t)
  | fail k i t => exact h

theorem stFrame_quiet (c : RawChunk) (s : State) : Quiet s (stFrame c s).state := by
  refine andThen_quiet (stLocate_quiet c s) fun a t => andThen_quiet (stChksum_quiet a.2 _ t) fun _ u => ?_
  refine Quiet.trans (stDecode_quiet a.2 (some a.1) u) ?_
  constructor <;> simp [OpResult.state]

theorem stDecode16_quiet (p : Packet) (s : State) : Quiet s (stDecode16 p s).state := by
  unfold stDecode16
  split
  · refine andThen_quiet (stChksum_quiet p _ s) fun _ u => ?_
    refine Quiet.trans (stDecode_quiet p none u) ?_
    constructor <;> simp [OpResult.state]
  · exact Quiet.refl s

/-- Everything taking a failure does after an operation that stayed in its place (R140). -/
theorem failureTaken_of_quiet (k : Status) (i : Info) {s u : State} (h : Quiet s u) (hp : u.phase = s.phase)
    (hs : u.seq = s.seq) (hw : u.window = s.window) : FailureTaken k i s (takeFailure k i u) := by
  have hq := h.trans (takeFailure_quiet k i u)
  refine ⟨by simp, by simp, by simp, hq.trace, hq.stopreq, hq.sameEnvironment, ?_, ?_⟩
  · intro hr
    have hu : u.phase.running = true := by rw [hp]; exact hr
    simp [takeFailure, hu]
  · intro hr
    simp [takeFailure, hr, hp, hs, hw]

/-- Everything FRAME returns and leaves, in the terms of the pure function (R111). -/
theorem stFrame_result (c : RawChunk) (s : State) :
    match frame c with
    | .ok o m => ∃ p u, stFrame c s = .ok (o, m) u ∧ m = recordOf p ∧ u.status = some .ok ∧
        u.info = some (.record (some o) m) ∧ u.meas = MeasRegs.ofRecord m ∧ u.sumok = some true ∧
        u.found = some true ∧ u.window = s.window ∧ (s.phase.running = false → u.off = some o)
    | .fail k i => ∃ u, stFrame c s = .fail k i u ∧ u.window = s.window := by
  rcases locate_cases c with ⟨_, e⟩ | ⟨w, _, _, e⟩ | ⟨w, o, _, _, _, e⟩ | ⟨w, o, h16, _, _, e⟩
  · simp [frame, e, stFrame, stLocate, OpResult.andThen]
  · simp [frame, e, stFrame, stLocate, OpResult.andThen]
  · simp [frame, e, stFrame, stLocate, OpResult.andThen]
  · cases hc : checksumOk (slice w o.val h16)
    · simp [frame, e, stFrame, stLocate, OpResult.andThen, stChksum, hc]
    · simp only [frame, e, hc, if_true, stFrame, stLocate, OpResult.andThen, stChksum]
      refine ⟨slice w o.val h16, _, rfl, rfl, ?_⟩
      simp [stDecode]
      intro hr
      have h1 : s.phase ≠ .locate := by rintro h; rw [h] at hr; cases hr
      have h2 : s.phase ≠ .chksum := by rintro h; rw [h] at hr; cases hr
      have h3 : s.phase ≠ .decode := by rintro h; rw [h] at hr; cases hr
      simp [endDecodeAttempt, State.atOp, advance, h1, h2, h3]

/-- What a datapath operation that answers a next state cannot have done. -/
theorem exec_datapath_quiet {i : Instr} {s t : State} (h : exec i s = .next t)
    (hi : i ≠ .iter ∧ i ≠ .read ∧ i ≠ .emit ∧ i ≠ .diag ∧ i ≠ .flush) : Quiet s t := by
  cases i with
  | iter => simp at hi
  | read => simp at hi
  | emit => simp at hi
  | diag => simp at hi
  | flush => simp at hi
  | locate src => obtain ⟨c, _, rfl⟩ := withWindow_next h; exact conclude_quiet (stLocate_quiet c s)
  | frame src => obtain ⟨c, _, rfl⟩ := withWindow_next h; exact conclude_quiet (stFrame_quiet c s)
  | chksum src => obtain ⟨c, _, _, rfl, _⟩ := execChksum_next h; exact conclude_quiet (stChksum_quiet c _ s)
  | decode16 b => cases h; exact conclude_quiet (stDecode16_quiet b s)
  | decode src => obtain ⟨c, _, _, rfl, _⟩ := execDecode_next h; exact stDecode_quiet c _ s
  | extId src => obtain ⟨c, _, rfl⟩ := withPacket_next h; constructor <;> simp
  | extTime src => obtain ⟨c, _, rfl⟩ := withPacket_next h; constructor <;> simp
  | extDist src => obtain ⟨c, _, rfl⟩ := withPacket_next h; constructor <;> simp
  | extStatus src => obtain ⟨c, _, rfl⟩ := withPacket_next h; constructor <;> simp
  | extStrength src => obtain ⟨c, _, rfl⟩ := withPacket_next h; constructor <;> simp
  | extAcc src => obtain ⟨c, _, rfl⟩ := withPacket_next h; constructor <;> simp

end Sys2Proof.Machine
end

