-- ==== Sys2Proof/Laws/Run.lean ====
section
/-! SUPPORT. What the sequencer's moves leave, written out, and how runs are put together from steps. -/

namespace Sys2Proof.Machine

/-! Runs. -/

theorem run_zero (s : State) : Host.Core.run Sys2Proof.core 0 s = .next s := rfl

theorem run_succ {s t : State} (n : Nat) (h : step s = .next t) :
    Host.Core.run Sys2Proof.core (n + 1) s = Host.Core.run Sys2Proof.core n t := by
  have hs : Sys2Proof.core.step s = .next t := h
  simp [Host.Core.run, hs]

theorem run_fault {s : State} {r : Fault} (n : Nat) (h : step s = .fault r) :
    Host.Core.run Sys2Proof.core (n + 1) s = .fault r := by
  have hs : Sys2Proof.core.step s = .fault r := h
  simp [Host.Core.run, hs]

theorem run_refused {s : State} {r : Refusal} (n : Nat) (h : step s = .refused r) :
    Host.Core.run Sys2Proof.core (n + 1) s = .refused r := by
  have hs : Sys2Proof.core.step s = .refused r := h
  simp [Host.Core.run, hs]

/-! The moves, each in its place. -/

/-- The boundary without a stop request. -/
theorem boundary_go {s : State} (h : s.stopreq = false) :
    iterationBoundary s = { clearRegs s with status := none, info := none, phase := .read, seq := .op } := by
  simp [iterationBoundary, h]

/-- The boundary with a stop request. -/
theorem boundary_stop {s : State} (h : s.stopreq = true) :
    iterationBoundary s = record (.ended .stoppedOk) { clearRegs s with status := some .interrupted, info := none, phase := .stoppedOk, seq := .op } := by
  simp [iterationBoundary, h]

/-- READ in its place, right after the boundary. -/
theorem readDone_go {s : State} (h : s.stopreq = false) (k : Fin 33) :
    readDone k (iterationBoundary s) =
      { clearRegs s with
        status := none, info := none, phase := .locate, seq := .op, window := some (readChunk s k),
        pos := s.pos + k.val, rxq := s.rxq - k.val, readQ := s.readQ.tail, draws := s.draws + 1,
        trace := s.trace ++ [.srcRead 32 3 (.bytes k)] } := by
  rw [boundary_go h]
  simp [readDone, advance, State.atOp, record, readChunk, clearRegs]

/-- A READ that fails, right after the boundary. -/
theorem readFailed_go {s : State} (h : s.stopreq = false) :
    readFailed (iterationBoundary s) =
      { clearRegs s with
        status := some .transportFailure, info := none, phase := .stoppedErr, seq := .op,
        pos := s.pos + Config.posAfterFailure s.draws, readQ := s.readQ.tail, draws := s.draws + 1,
        trace := s.trace ++ [.srcRead 32 3 .failure, .ended .stoppedErr] } := by
  rw [boundary_go h]
  simp [readFailed, takeFatal, record, clearRegs, Phase.running]

/-- Where FRAME leaves the sequencer when it runs in LOCATE's place. -/
theorem stFrame_place (c : RawChunk) (s : State) (hp : s.phase = .locate) (hs : s.seq = .op) :
    match stFrame c s with
    | .ok _ u => u.phase = .emit ∧ u.seq = .op
    | .fail _ _ u => (u.phase = .locate ∨ u.phase = .chksum) ∧ u.seq = .op := by
  rcases locate_cases c with ⟨_, e⟩ | ⟨w, _, _, e⟩ | ⟨w, o, _, _, _, e⟩ | ⟨w, o, h16, _, _, e⟩
  · simp [e, stFrame, stLocate, OpResult.andThen, hp, hs]
  · simp [e, stFrame, stLocate, OpResult.andThen, hp, hs]
  · simp [e, stFrame, stLocate, OpResult.andThen, hp, hs]
  · cases hc : checksumOk (slice w o.val h16)
    · simp [e, stFrame, stLocate, OpResult.andThen, stChksum, hc, advance, State.atOp, hp, hs]
    · simp [e, stFrame, stLocate, OpResult.andThen, stChksum, hc, advance, State.atOp, hp, hs, stDecode,
        endDecodeAttempt, succeed]

/-! The stream a run has read. -/

/-- What stood in the stream still stands there: STREAM does not change and POS only grows. -/
theorem StoodInStream.mono {s t : State} {bs : List Byte} (h : StoodInStream s bs) (hs : t.stream = s.stream)
    (hp : s.pos ≤ t.pos) : StoodInStream t bs := by
  obtain ⟨a, h1, h2⟩ := h
  exact ⟨a, by omega, by rw [hs]; exact h2⟩

/-- A slice of a window that stood in the stream stood there too. -/
theorem slice_stood {s : State} {c : RawChunk} {w : Window} (hw : fullWindow c = some w)
    (hc : StoodInStream s c.bytes) (o : Nat) (h16 : o + 16 ≤ 32) : StoodInStream s (slice w o h16).toList := by
  rw [slice_toList, fullWindow_some hw]
  obtain ⟨a, h1, h2⟩ := hc
  have hl : c.bytes.length = 32 := by rw [← fullWindow_some hw]; simp
  have hd : ((c.bytes.drop o).take 16).length = 16 := by simp; omega
  refine ⟨a + o, by simp; omega, ?_⟩
  rw [hd]
  apply List.ext_getElem
  · simp; omega
  · intro k q1 q2
    simp only [List.getElem_take, List.getElem_drop, bytesAt_getElem]
    rw [List.getElem_of_eq h2]
    simp [Nat.add_assoc]

/-- A record the sink has after some transactions it had before, or it is among them. -/
theorem emitted_append {s t : State} {xs : List Xact} {m : Measurement} (h : t.trace = s.trace ++ xs)
    (hm : m ∈ t.emitted) : m ∈ s.emitted ∨ .sinkEmit m ∈ xs := by
  simp only [State.emitted, h, List.filterMap_append, List.mem_append] at hm
  rcases hm with hm | hm
  · exact .inl hm
  · obtain ⟨x, hx, he⟩ := List.mem_filterMap.1 hm
    cases x <;> simp at he
    subst he
    exact .inr hx

end Sys2Proof.Machine
end

