-- ==== Sys2Proof/Tests/Slice0.lean ====
section
/-! SUPPORT. Tests with their expected results from 95_test_vectors (the vector's id stands with each), and for every
statement with hypotheses a concrete state and operands that meet them. -/

namespace Sys2Proof.Tests

open Sys2Proof Sys2Proof.Machine

/-! Helpers. -/

/-- The next state of an outcome. -/
def nextOf (o : Host.Outcome State Fault Refusal) : Option State :=
  match o with
  | .next s => some s
  | _ => none

/-- Why an outcome is a fault. -/
def faultOf (o : Host.Outcome State Fault Refusal) : Option Fault :=
  match o with
  | .fault r => some r
  | _ => none

/-- Why an outcome is a refusal. -/
def refusalOf (o : Host.Outcome State Fault Refusal) : Option Refusal :=
  match o with
  | .refused r => some r
  | _ => none

/-- Bytes from numbers. -/
def hex (ns : List Nat) : List Byte := ns.map (BitVec.ofNat 8)

/-- The packet EX of S1. -/
def ex : Packet :=
  ⟨#[0x57#8, 0x00#8, 0xFF#8, 0x01#8, 0xE8#8, 0x03#8, 0x00#8, 0x00#8, 0x64#8, 0x00#8, 0x00#8, 0x01#8, 0x32#8, 0x00#8,
    0x05#8, 0xDE#8], rfl⟩

/-- The record of EX. -/
def exRecord : Measurement := ⟨1, 1000, 100, 1, 50, 5⟩

/-- The packet of V-D4. -/
def d4 : Packet :=
  ⟨#[0x57#8, 0x00#8, 0xFF#8, 0x12#8, 0xEF#8, 0xCD#8, 0xAB#8, 0x89#8, 0x89#8, 0x67#8, 0x45#8, 0x01#8, 0xEF#8, 0xBE#8,
    0x7A#8, 0xB5#8], rfl⟩

/-- The packet of V-C5, one bit of EX flipped. -/
def c5 : Packet := ex.set 8 0x65#8

/-- The packet of V-C9: bytes 4 and 6 of EX exchanged. -/
def c9 : Packet := (ex.set 4 0x00#8).set 6 0xE8#8

/-- The sixteen zero bytes of V-X1. -/
def x1 : Packet := Vector.replicate 16 0x00#8

/-- A window of 32 bytes: the first 32 of the list and zeros. -/
def chunk (bs : List Byte) : RawChunk := ⟨(bs ++ List.replicate 32 0x00#8).take 32, by simp⟩

/-- A window of fewer bytes. -/
def shortChunk (bs : List Byte) : RawChunk := ⟨bs.take 31, by simp⟩

/-- The window of V-L2. -/
def l2 : RawChunk :=
  chunk (hex [0xAA, 0x55, 0x13, 0x57, 0x00, 0x10, 0x00] ++ ex.toList ++ hex [1, 2, 3, 4, 5, 6, 7, 8, 9])

/-- The window of V-L3: EX at the last offset that succeeds. -/
def l3 : RawChunk := chunk (List.replicate 16 0x10#8 ++ ex.toList)

/-- The window of V-L4: a header at 17. -/
def l4 : RawChunk := chunk (List.replicate 17 0x10#8 ++ ex.toList)

/-- The window of V-L5: a header at 29. -/
def l5 : RawChunk := chunk (List.replicate 29 0x11#8 ++ hex [0x57, 0x00, 0xFF])

/-- The window of V-L6: a header cut by the window's end. -/
def l6 : RawChunk := chunk (List.replicate 30 0x11#8 ++ hex [0x57, 0x00])

/-- A window with the corrupted packet of V-C5 at 5 (as in V-L15). -/
def l15 : RawChunk := chunk (List.replicate 5 0x00#8 ++ c5.toList)

/-- A window with hits at 0 and 3. -/
def twoHits : Window :=
  (((((Vector.replicate 32 0x00#8).set 0 0x57#8).set 2 0xFF#8).set 3 0x57#8).set 5 0xFF#8)

/-- A window with EX at 0. -/
def l0 : RawChunk := chunk ex.toList

/-- After reset, with a stream, the next answers of the Reader and of the FLUSH, and 4 pending bytes. -/
def start (bs : List Byte) (r : List ReadAnswer) (f : List FlushAnswer) : State :=
  { State.reset with stream := Memory.ofBytes 0 bs, readQ := r, flushQ := f, rxq := 36 }

/-- A state at any place of the sequencer, EX read from the stream and in every register. -/
def full (p : Phase) (q : SeqPoint) : State :=
  { State.reset with
    phase := p, seq := q, stream := Memory.ofBytes 0 l0.bytes, pos := 32, window := some l0, found := some true,
    off := some 0, cand := some ex, sum := some 0xDE#8, sumok := some true, meas := MeasRegs.ofRecord exRecord,
    status := some .ok, info := some (.record (some 0) exRecord) }

/-! WellFormed refuses ill-formed operands. -/

theorem test_wf_locate_33 : Instr.wf (.locate (.pins 33 (Vector.replicate 32 0))) = false := by decide
theorem test_wf_frame_63 : Instr.wf (.frame (.pins 63 (Vector.replicate 32 0))) = false := by decide
theorem test_wf_frame_32 : Instr.wf (.frame (.pins 32 (Vector.replicate 32 0))) = true := by decide
theorem test_wf_packet_header :
    Instr.wf (.chksum (.word x1)) = false ∧ Instr.wf (.extId (.word x1)) = false ∧
    Instr.wf (.extTime (.word x1)) = false ∧ Instr.wf (.extDist (.word x1)) = false ∧
    Instr.wf (.extStatus (.word x1)) = false ∧ Instr.wf (.extStrength (.word x1)) = false ∧
    Instr.wf (.extAcc (.word x1)) = false ∧ Instr.wf (.decode (.word x1)) = false ∧
    Instr.wf (.decode (.word (ex.set 2 0xFE#8))) = false ∧ Instr.wf (.decode (.word ex)) = true := by decide

/-! Words written out (30_encoding R51, R52, R56; S1; selectors of log 1). -/

theorem test_decode_h3 : decode (hex [0x57, 0x00, 0xFF]) = .ok (.locate .regs) := by decide
theorem test_decode_h3_near : decode (hex [0x57, 0x01, 0xFF]) = .error .notHeader := by decide
theorem test_decode_p16 :
    decode (hex [0x57, 0x00, 0xFF, 0x01, 0xE8, 0x03, 0x00, 0x00, 0x64, 0x00, 0x00, 0x01, 0x32, 0x00, 0x05, 0xDE]) =
      .ok (.decode16 ex) := by decide
theorem test_decode_stages :
    decode (hex [0x57, 0x00, 0xFF, 0x01, 0xE8, 0x03, 0x00, 0x00, 0x64, 0x00, 0x00, 0x01, 0x32, 0x00, 0x05, 0xDE, 4]) =
      .ok (.chksum (.word ex)) ∧
    decode (ex.toList ++ [6#8]) = .ok (.extId (.word ex)) ∧ decode (ex.toList ++ [7#8]) = .ok (.extTime (.word ex)) ∧
    decode (ex.toList ++ [8#8]) = .ok (.extDist (.word ex)) ∧
    decode (ex.toList ++ [9#8]) = .ok (.extStatus (.word ex)) ∧
    decode (ex.toList ++ [10#8]) = .ok (.extStrength (.word ex)) ∧
    decode (ex.toList ++ [11#8]) = .ok (.extAcc (.word ex)) ∧
    decode (ex.toList ++ [12#8]) = .ok (.decode (.word ex)) := by decide
theorem test_decode_selectors :
    decode [0#8] = .ok .iter ∧ decode [1#8] = .ok .read ∧ decode [3#8] = .ok (.frame .regs) ∧
    decode [4#8] = .ok (.chksum .cand) ∧ decode [12#8] = .ok (.decode .cand) ∧ decode [13#8] = .ok .emit ∧
    decode [14#8] = .ok .diag ∧ decode [15#8] = .ok .flush ∧ decode [16#8] = .error (.noOperation 16) := by decide
theorem test_decode_window :
    decode (List.replicate 32 0x11#8 ++ [32#8, 3#8]) = .ok (.frame (.pins 32 (Vector.replicate 32 0x11#8))) ∧
    decode (List.replicate 32 0x11#8 ++ [31#8, 2#8]) = .ok (.locate (.pins 31 (Vector.replicate 32 0x11#8))) := by decide
theorem test_decode_refuses :
    decode (x1.toList ++ [6#8]) = .error .notHeader ∧ decode [] = .error (.badLength 0) ∧
    decode (List.replicate 15 0#8) = .error (.badLength 15) ∧
    decode (List.replicate 32 0#8 ++ [33#8, 3#8]) = .error (.windowTooLong 33) := by decide

/-- The table's own patterns (opcode_table.json): H3's match, and P16 with EX's fields, `P` of S1. -/
theorem test_table_words :
    decodeTableWord 24 0xFF0057 = some (.locate .regs) ∧ decodeTableWord 24 0xFF0056 = none ∧
    decodeTableWord 128 0xDE05003201000064000003E801FF0057 = some (.decode16 ex) ∧
    decodeTableWord 0 0 = some .iter := by decide

theorem test_fetch_word :
    (nextOf (step (State.reset.withFetchWord 128 0xDE05003201000064000003E801FF0057))).map (fun t => t.meas) =
      some (MeasRegs.ofRecord exRecord) ∧
    (nextOf (step (State.reset.withFetchWord 24 0xFF0057))).map (fun t => t.off) = some (some 0) := by decide

/-! Packets and fields. -/

/-- V-D1, V-D4, V-D3, V-D7: PKT. -/
theorem test_pkt :
    pkt exRecord = ex ∧ pkt ⟨18, 2309737967, 4548489, 1, 48879, 122⟩ = d4 ∧
    (pkt ⟨255, 4294967295, 16777215, 255, 65535, 255⟩)[15] = 0x4A#8 ∧ (pkt ⟨170, 0, 0, 0, 0, 0⟩)[15] = 0x00#8 := by decide

/-- V-D4: each field alone. -/
theorem test_ext :
    (nextOf (exec (.extId (.word d4)) State.reset)).map (fun t => t.meas.id) = some (some 0x12) ∧
    (nextOf (exec (.extTime (.word d4)) State.reset)).map (fun t => t.meas.systemTimeMs) = some (some 0x89ABCDEF) ∧
    (nextOf (exec (.extDist (.word d4)) State.reset)).map (fun t => t.meas.distanceMm) = some (some 0x456789) ∧
    (nextOf (exec (.extStatus (.word d4)) State.reset)).map (fun t => t.meas.signalStatus) = some (some 0x01) ∧
    (nextOf (exec (.extStrength (.word d4)) State.reset)).map (fun t => t.meas.signalStrength) = some (some 0xBEEF) ∧
    (nextOf (exec (.extAcc (.word d4)) State.reset)).map (fun t => t.meas.signalAccuracy) = some (some 0x7A) := by decide

/-- V-C9: DECODE tests no sum; 0x00E80300. -/
theorem test_decode_op :
    (nextOf (exec (.decode (.word c9)) State.reset)).map (fun t => t.meas.systemTimeMs) = some (some 15205120) := by decide

/-- V-C1, V-C5, V-C9. -/
theorem test_chksum :
    (nextOf (exec (.chksum (.word ex)) State.reset)).map (fun t => (t.sum, t.sumok)) = some (some 0xDE, some true) ∧
    (nextOf (exec (.chksum (.word c5)) State.reset)).map (fun t => (t.sum, t.sumok, t.status, t.info)) =
      some (some 0xDF, some false, some .checksumMismatch, some (.sums 0xDF 0xDE none)) ∧
    checksumOk c9 = true := by decide

/-- S1, V-X1, V-X3. -/
theorem test_decode16 :
    (nextOf (exec (.decode16 ex) State.reset)).map (fun t => (t.status, t.meas)) =
      some (some .ok, MeasRegs.ofRecord exRecord) ∧
    decode16 x1 = .fail .headerNotFound .wrongHeader ∧
    decode16 (ex.set 15 0xDD#8) = .fail .checksumMismatch (.sums 0xDE 0xDD none) := by decide

/-! Windows. -/

/-- V-L2, V-L3, V-L4, V-L5, V-L6, V-L10. -/
theorem test_frame_l2 : frame l2 = .ok 7 exRecord := by decide
theorem test_frame_l3 : frame l3 = .ok 16 exRecord := by decide
theorem test_frame_late : frame l4 = .fail .headerNotFound (.lateHit 17) ∧ frame l5 = .fail .headerNotFound (.lateHit 29) := by decide
theorem test_frame_none : frame l6 = .fail .headerNotFound .noHit ∧ frame (shortChunk []) = .fail .incompletePacket (.wlen 0) := by decide
theorem test_frame_sum : frame l15 = .fail .checksumMismatch (.sums 0xDF 0xDE (some 5)) := by decide

/-- V-L9: a complete packet in a window of 31 bytes is not decoded. -/
theorem test_frame_l9 : frame (shortChunk l2.bytes) = .fail .incompletePacket (.wlen 31) := by decide

/-- V-L14a, V-L14b: the byte-serial matcher's restarts. -/
theorem test_serial :
    matcherFrom 0 0 (hex [0x57] ++ ex.toList) = some 1 ∧ matcherFrom 0 0 (hex [0x57, 0x00] ++ ex.toList) = some 2 := by decide

/-- LOCATE on V-L2: `FOUND`, `OFF`, `CAND`. -/
theorem test_locate :
    (nextOf (exec (.locate .regs) { State.reset with window := some l2 })).map (fun t => (t.found, t.off, t.cand)) =
      some (some true, some 7, some ex) := by decide

/-- V-L2 on the inputs of the combinational use, whole and with `WLEN` 31 (V-L9). -/
def l2Pins : Window := ⟨l2.bytes.toArray, by decide⟩

theorem test_pins :
    windowAt (.pins 32 l2Pins) State.reset = some l2 ∧
    (nextOf (exec (.frame (.pins 32 l2Pins)) State.reset)).map (fun t => (t.off, t.meas)) =
      some (some 7, MeasRegs.ofRecord exRecord) ∧
    (nextOf (exec (.locate (.pins 31 l2Pins)) State.reset)).map (fun t => t.info) = some (some (.wlen 31)) := by decide

/-! ITER (V-Q1, V-Q2, V-Q5, V-Q6, V-Q7). -/

theorem test_iter_q1 :
    (nextOf (exec .iter (start l2.bytes [.bytes 32] [.done 2]))).map (fun t => (t.trace, t.pos, t.rxq)) =
      some ([.srcRead 32 3 (.bytes 32), .sinkEmit exRecord, .diag .ok (some (.record (some 7) exRecord)),
        .srcFlush (.done 2)], 38, 0) := by decide
theorem test_iter_q2 :
    (nextOf (exec .iter (start l2.bytes [.bytes 20] []))).map (fun t => (t.trace, t.seq)) =
      some ([.srcRead 32 3 (.bytes 20), .diag .incompletePacket (some (.wlen 20))], .boundary) := by decide
theorem test_iter_q5 :
    (nextOf (exec .iter (start [] [.failure] []))).map (fun t => (t.trace, t.phase, t.status)) =
      some ([.srcRead 32 3 .failure, .ended .stoppedErr], .stoppedErr, some .transportFailure) := by decide
theorem test_iter_q6 :
    (nextOf (exec .iter (start l2.bytes [.bytes 32] [.failure]))).map (fun t => (t.emitted, t.phase)) =
      some ([exRecord], .stoppedErr) := by decide
theorem test_iter_q7 :
    (nextOf (exec .iter { State.reset with stopreq := true })).map (fun t => (t.trace, t.status)) =
      some ([.ended .stoppedOk], some .interrupted) := by decide

/-- R93: after a direct FRAME that is OK and an EMIT, a direct LOCATE and DECODE of a candidate with the same fields and a
wrong checksum, never tested, leave nothing for EMIT to send; nor does a mix of two packets; what FRAME itself validated
is sent. -/
theorem test_no_bypass :
    ((((nextOf (exec (.frame (.pins 32 l2Pins)) { State.reset with window := some (chunk (ex.set 15 0xDD#8).toList) })).bind
      fun t => (nextOf (exec .emit t)).bind fun t => nextOf (exec (.locate .regs) t)).bind fun t =>
      nextOf (exec (.decode .cand) t)).map fun t => (t.status, t.cand, t.meas.record?, faultOf (exec .emit t))) =
      some (some .ok, some (ex.set 15 0xDD#8), some exRecord, some (.noValue .meas)) ∧
    ((nextOf (exec (.decode16 ex) State.reset)).bind fun t => (nextOf (exec (.extId (.word d4)) t)).map fun u =>
      faultOf (exec .emit u)) = some (some (.noValue .meas)) ∧
    ((nextOf (exec (.frame (.pins 32 l2Pins)) State.reset)).bind fun t => (nextOf (exec .emit t)).map fun u =>
      u.emitted) = some [exRecord] := by decide

/-- EMIT, DIAG, FLUSH and READ alone. -/
theorem test_emit_diag :
    (nextOf (exec .emit (full .emit .op))).map (fun t => (t.emitted, t.meas, t.seq)) =
      some ([exRecord], MeasRegs.empty, .report) ∧
    (nextOf (exec .diag (full .emit .report))).map (fun t => (t.diags, t.phase, t.seq)) =
      some ([.ok], .flush, .op) := by decide
theorem test_read_flush :
    (nextOf (exec .read (start (hex [9, 8, 7]) [.bytes 2] []))).map (fun t => (t.window.map (fun c => c.bytes), t.pos, t.rxq)) =
      some (some (hex [9, 8]), 2, 34) ∧
    (nextOf (exec .flush (start [] [] [.done 1]))).map (fun t => (t.pos, t.rxq)) = some (37, 0) := by decide

/-! Witnesses: each statement's hypotheses, met. -/

/-- The sequencer's invariant at every place (witness of PhaseFollowsTable, StepKeepsSeqInv, SequencerNeverStops,
TransactionsOnlyInTheirPhase). -/
theorem witness_seqInv (p : Phase) (q : SeqPoint) (h : ¬ (p = .idle ∧ q = .report)) : SeqInv (full p q) := by
  have hw : StoodInStream (full p q) l0.bytes :=
    ⟨0, Nat.le_refl 32, (by decide : l0.bytes = Memory.bytesAt (Memory.ofBytes 0 l0.bytes) 0 l0.bytes.length)⟩
  have hx : StoodInStream (full p q) ex.toList :=
    ⟨0, (by decide : 0 + ex.toList.length ≤ 32),
      (by decide : ex.toList = Memory.bytesAt (Memory.ofBytes 0 l0.bytes) 0 ex.toList.length)⟩
  have hp : pkt exRecord = ex := by decide
  exact
    { port_empty := rfl
      idle_point := fun a b => h ⟨a, b⟩
      stream_wf := (by decide : Memory.wf (Memory.ofBytes 0 l0.bytes) = true)
      locate_window := fun _ _ => ⟨l0, rfl, hw⟩
      chksum_candidate := fun _ _ => ⟨ex, 0, rfl, by decide, hx, rfl, rfl, by decide⟩
      decode_candidate := fun _ _ => ⟨ex, rfl, by decide, hx, rfl, rfl, 0, rfl⟩
      emit_record := fun _ _ => ⟨exRecord, rfl, by rw [hp]; exact hx⟩
      report_status := fun _ => ⟨.ok, rfl⟩
      emitted_stood := fun m hm => by cases hm }

/-- Each row of PhaseTable has a state under the invariant; the answers of READ and FLUSH each way. -/
theorem witness_phaseTable :
    SeqInv (full .locate .op) ∧ SeqInv (full .chksum .report) ∧ SeqInv (full .flush .boundary) ∧ SeqInv (full .idle .op) ∧
    SeqInv (full .stoppedErr .op) ∧
    nextReadAnswer { full .read .op with readQ := [.failure] } = .failure ∧
    nextReadAnswer { full .read .op with readQ := [.bytes 32] } = .bytes 32 ∧
    nextFlushAnswer { full .flush .op with flushQ := [.failure] } = .failure ∧
    nextFlushAnswer { full .flush .op with flushQ := [.done 0] } = .done 0 :=
  ⟨witness_seqInv _ _ (by decide), witness_seqInv _ _ (by decide), witness_seqInv _ _ (by decide),
    witness_seqInv _ _ (by decide), witness_seqInv _ _ (by decide), by decide, by decide, by decide, by decide⟩

/-- The invariant holds with a stop request (witness of StopHonouredWithinOneIteration). -/
theorem witness_stopHonoured :
    SeqInv { full .read .op with stopreq := true } ∧ (full .read .op).phase.running = true ∧
    (full .read .op).inputs = [] := by
  have h := witness_seqInv .read .op (by decide)
  exact ⟨⟨h.1, h.2, h.3, h.4, h.5, h.6, h.7, h.8, h.9⟩, by decide, by decide⟩

/-- A step that answers a next state under the invariant, with an output (StepKeepsSeqInv, TransactionsOnlyInTheirPhase,
StreamAndTraceOnlyGrow). -/
theorem witness_step : SeqInv (full .emit .op) ∧ ∃ t, step (full .emit .op) = .next t ∧ t.trace = [.sinkEmit exRecord] :=
  ⟨witness_seqInv _ _ (by decide), emitState exRecord (full .emit .op), rfl, by decide⟩

/-- CtlResetFromAnyState; CtlStartLeavesIdleOnly, each clause; StopRequestIsLatched, each clause. -/
theorem witness_ctl :
    ({ full .chksum .op with inputs := [.reset] } : State).inputs = .reset :: [] ∧
    ({ full .idle .op with inputs := [.start], stopreq := true } : State).phase = .idle ∧
    ({ full .idle .op with inputs := [.start], stopreq := true } : State).stopreq = true ∧
    ({ full .idle .op with inputs := [.start] } : State).stopreq = false ∧
    ({ full .flush .op with inputs := [.start] } : State).phase ≠ .idle ∧
    ({ full .read .op with inputs := [.stop] } : State).inputs = .stop :: [] ∧
    (∃ t, step { full .emit .op with stopreq := true } = .next t) ∧
    ({ full .emit .op with stopreq := true } : State).inputs.head? ≠ some .reset :=
  ⟨by decide, by decide, by decide, by decide, by decide, by decide,
    ⟨emitState exRecord { full .emit .op with stopreq := true }, rfl⟩, by decide⟩

/-- BoundaryTakesStopRequest and StopTakenOnlyAtBoundary; IterEqualsPhaseRun. -/
theorem witness_boundary :
    (full .flush .boundary).seq = .boundary ∧ (full .flush .boundary).stopreq = false ∧
    (full .flush .boundary).phase ≠ .stoppedOk ∧ (full .flush .boundary).inputs = [] ∧
    ∃ t, step { full .idle .boundary with stopreq := true } = .next t ∧ t.phase = .stoppedOk ∧
      (full .idle .boundary).phase ≠ .stoppedOk :=
  ⟨by decide, by decide, by decide, by decide,
    iterationBoundary { full .idle .boundary with stopreq := true }, rfl, by decide, by decide⟩

/-- StopTakenOnlyAtBoundary's other case: a direct ITER request in IDLE. -/
theorem witness_iterRequest :
    (nextOf (step { State.reset with stopreq := true, port := [0#8] })).map (fun t => t.phase) = some .stoppedOk := by
  decide

/-- StoppedDoesNothingUntilReset, both stopped phases, with and without an input. -/
theorem witness_stopped :
    (∃ t, step (full .stoppedOk .op) = .next t) ∧ (full .stoppedOk .op).inputs.head? ≠ some .reset ∧
    (∃ t, step { full .stoppedErr .op with inputs := [.start] } = .next t) :=
  ⟨⟨_, rfl⟩, by decide, ⟨_, rfl⟩⟩

/-- StepRunsSelectedOperation: an idle core with a request, and with one that is no operation; a running one; one with its
DIAG next; an arrival and a `pass`. -/
theorem witness_stepRuns :
    decode ({ full .idle .op with port := [15#8] } : State).port = .ok .flush ∧
    decode ({ full .idle .op with port := [16#8] } : State).port = .error (.noOperation 16) ∧
    ({ full .read .op with inputs := [.arrive 5] } : State).inputs = .arrive 5 :: [] ∧
    ({ full .read .op with inputs := [.pass] } : State).inputs = .pass :: [] ∧
    (full .decode .op).phase = .decode ∧ (full .decode .op).inputs = [] ∧
    (full .emit .report).seq = .report ∧ (full .emit .report).phase ≠ .stoppedErr := by decide

/-- DecodeOfEncode (each format) and EncodeOfDecode. -/
theorem witness_encoding :
    Instr.wf (.decode (.word ex)) = true ∧ Instr.wf (.frame (.pins 32 (Vector.replicate 32 0xFF#8))) = true ∧
    Instr.wf (.decode16 x1) = true ∧ Instr.wf (.locate .regs) = true ∧ Instr.wf .flush = true ∧
    decode (ex.toList ++ [11#8]) = .ok (.extAcc (.word ex)) := by decide

/-- ReadReturnsNextStreamBytes at 0 and 32 bytes; FlushDiscardsPending; TransportFailureEndsRun, each clause. -/
theorem witness_transport :
    nextReadAnswer (start [] [.bytes 0] []) = .bytes 0 ∧ nextReadAnswer (start [] [.bytes 32] []) = .bytes 32 ∧
    nextFlushAnswer (start [] [] [.done 0]) = .done 0 ∧
    nextReadAnswer { full .read .op with readQ := [.failure] } = .failure ∧ (full .read .op).phase.running = true ∧
    nextFlushAnswer { full .flush .op with flushQ := [.failure] } = .failure ∧
    (full .flush .op).phase.running = true ∧ nextReadAnswer (start [] [.failure] []) = .failure ∧
    nextFlushAnswer (start [] [] [.failure]) = .failure ∧ (start [] [] []).phase.running = false := by decide

/-- The least hit of some bytes, as a test that decides. -/
def leastHit (bs : List Byte) (i : Nat) : Bool :=
  let h := fun j => bs[j]? == some 0x57#8 && bs[j + 1]? == some 0x00#8 && bs[j + 2]? == some 0xFF#8
  h i && (List.range i).all fun j => !h j

theorem leastHit_spec {bs : List Byte} {i : Nat} (h : leastHit bs i = true) : FirstHitAt bs i := by
  simp only [leastHit, Bool.and_eq_true, beq_iff_eq, List.all_eq_true, List.mem_range] at h
  refine ⟨⟨h.1.1.1, h.1.1.2, h.1.2⟩, fun j hj hh => ?_⟩
  have hn := h.2 j hj
  rw [hh.1, hh.2.1, hh.2.2] at hn
  simp at hn

theorem noHit_spec (c : RawChunk) (h : ((List.range 32).all fun j =>
    !(c.bytes[j]? == some 0x57#8 && c.bytes[j + 1]? == some 0x00#8 && c.bytes[j + 2]? == some 0xFF#8)) = true) :
    ∀ i, ¬ HitAt c.bytes i := by
  intro i hi
  have hl := hi.lt
  have hc := c.length_le
  have hn := (List.all_eq_true.1 h) i (List.mem_range.2 (by omega))
  rw [hi.1, hi.2.1, hi.2.2] at hn
  simp at hn

/-- LocateFindsFirstHit at offsets 0 and 16, in both forms; ResynchronizationFindsPacket and FrameSucceedsIff there. -/
theorem witness_locateFinds :
    windowAt .regs { State.reset with window := some l3 } = some l3 ∧ l3.bytes.length = 32 ∧
    FirstHitAt l3.bytes (16 : Fin 30).val ∧ FirstHitAt l0.bytes (0 : Fin 30).val ∧
    windowAt (.pins 32 (Vector.replicate 32 0)) State.reset = some (chunk []) ∧
    ex.toList = (l3.bytes.drop 16).take 16 ∧ validPacket ex = true ∧
    (∀ i < 16, ¬ HitAt l3.bytes i) :=
  ⟨by decide, by decide, leastHit_spec (by decide), leastHit_spec (by decide), by decide, by decide, by decide,
    (leastHit_spec (i := 16) (by decide)).2⟩

/-- LocateFailures and FrameFailsInOrder: lengths 0 and 31, no hit, late hits at 17 and 29, a wrong sum. -/
theorem witness_locateFails :
    (shortChunk []).bytes.length < 32 ∧ (shortChunk l2.bytes).bytes.length = 31 ∧
    l6.bytes.length = 32 ∧ (∀ i, ¬ HitAt l6.bytes i) ∧
    FirstHitAt l4.bytes (17 : Fin 30).val ∧ FirstHitAt l5.bytes (29 : Fin 30).val ∧
    FirstHitAt l15.bytes (5 : Fin 30).val ∧ c5.toList = (l15.bytes.drop 5).take 16 ∧ checksumOk c5 = false :=
  ⟨by decide, by decide, by decide, noHit_spec l6 (by decide), leastHit_spec (by decide), leastHit_spec (by decide),
    leastHit_spec (by decide), by decide, by decide⟩

/-- SeventeenComparatorsSuffice (found and not found in a full window); HitsAreThreeApart at distance 3; SliceIsBarrelShift
at the last offset. -/
theorem witness_search :
    (∃ w, fullWindow l3 = some w) ∧ locate l3 = .found 16 ex ∧ (∃ w, fullWindow l4 = some w) ∧
    locate l4 = .lateHit 17 ∧
    hit twoHits 0 = true ∧ hit twoHits 3 = true ∧ (0 : Fin 30) < 3 ∧
    (16 : Nat) + 16 ≤ 32 :=
  ⟨(fullWindow_of_length (by decide)).imp fun _ h => h.1, by decide, (fullWindow_of_length (by decide)).imp fun _ h => h.1,
    by decide, by decide, by decide, by decide, by decide⟩

/-- ChksumPasses, ChksumMismatchTaken (both sources), SerialChecksumAgrees (two packets of one sum, V-C9),
SingleByteChangeDetected at bytes 0 and 15, HeaderContributes56. -/
theorem witness_chksum :
    packetAt .cand (full .chksum .op) = some ex ∧
    ((ex.toList.take 15).map BitVec.toNat).sum % 256 = ex[15].toNat ∧ packetAt (.word c5) State.reset = some c5 ∧
    ((c5.toList.take 15).map BitVec.toNat).sum % 256 ≠ c5[15].toNat ∧ offAt (.word c5) State.reset = some none ∧
    packetAt .cand { full .chksum .op with cand := some c5 } = some c5 ∧
    offAt .cand { full .chksum .op with cand := some c5 } = some (some 0) ∧
    (ex.toList.take 15).Perm (c9.toList.take 15) ∧ ex ≠ c9 ∧
    validPacket ex = true ∧ (0x56#8 : Byte) ≠ ex[(0 : Fin 16).val] ∧ (0xDD#8 : Byte) ≠ ex[(15 : Fin 16).val] ∧
    headerMatches ex = true := by decide

/-- ExtOneByteFields, ExtMultiByteFields, DecodeWritesRecord (in its place and outside), PacketsAndRecordsOneToOne. -/
theorem witness_fields :
    packetAt .cand (full .decode .op) = some ex ∧ offAt .cand (full .decode .op) = some (some 0) ∧ packetAt (.word d4) State.reset = some d4 ∧
    (full .decode .op).phase = .decode ∧ (full .decode .op).seq = .op ∧
    ¬ (State.reset.phase = .decode ∧ State.reset.seq = .op) ∧ validPacket d4 = true := by decide

/-- Decode16RoundTrip; Decode16SucceedsIffValid, each clause; FrameRunsDatapath, each clause. -/
theorem witness_datapath :
    State.reset.phase.running = false ∧ validPacket ex = true ∧ headerMatches x1 = false ∧
    headerMatches c5 = true ∧ checksumOk c5 = false ∧
    windowAt .regs { State.reset with window := some l2 } = some l2 ∧ frame l2 = .ok 7 exRecord ∧
    windowAt .regs (full .locate .op) = some l0 ∧ frame l6 = .fail .headerNotFound .noHit := by decide

/-- LocateDirectUseFails, Decode16DirectUseFails, FrameDirectUse: outside an iteration, each clause. -/
theorem witness_directUse :
    State.reset.phase.running = false ∧ windowAt .regs { State.reset with window := some l4 } = some l4 ∧
    windowAt (.pins 31 (Vector.replicate 32 0)) State.reset = some (shortChunk (List.replicate 31 0)) ∧
    locate l4 = .lateHit 17 ∧ locate l6 = .noHit ∧ locate l2 = .found 7 ex ∧ checksumOk ex = true ∧
    locate l15 = .found 5 c5 ∧ checksumOk c5 = false ∧ headerMatches x1 = false ∧ headerMatches c5 = true := by decide

/-- EmitHandsRecordToSink, DiagReportsOutcome. -/
theorem witness_outputs :
    (full .emit .op).status = some .ok ∧ (full .emit .op).meas = MeasRegs.ofRecord exRecord ∧
    (full .emit .op).info = some (.record (some 0) exRecord) ∧ (full .emit .report).status = some .ok ∧
    (full .locate .report).status = some .ok := by decide

/-- NoBypassOfChecksum, each clause, beside an OK of an earlier operation too. -/
theorem witness_noBypass :
    packetAt (.word d4) (full .idle .op) = some d4 ∧ packetAt .cand (full .idle .op) = some ex ∧
    (full .idle .op).phase ≠ .decode ∧ (full .idle .op).status = some .ok ∧ packetAt .cand (full .decode .op) = some ex ∧
    windowAt .regs (full .idle .op) = some l0 ∧ (full .idle .op).phase.running = false ∧ frame l0 = .ok 0 exRecord ∧
    validPacket ex = true := by decide

/-- OkOnlyAfterChecksum: a new OK at DECODE in its place, and by a direct request. -/
theorem witness_checksumGate :
    ChecksumGate (full .decode .op) ∧
    (nextOf (step (full .decode .op))).map (fun t => t.status) = some (some .ok) ∧
    ChecksumGate { State.reset with port := encode (.decode16 ex) } ∧
    (nextOf (step { State.reset with port := encode (.decode16 ex) })).map (fun t => t.status) = some (some .ok) := by
  refine ⟨fun _ _ => rfl, by decide, ?_, by decide⟩
  intro h
  cases h

/-- IterIssuesTransactions, each clause; the states of IterEqualsPhaseRun are those of witness_boundary. -/
theorem witness_iter :
    ({ State.reset with stopreq := true } : State).stopreq = true ∧
    nextReadAnswer (start [] [.failure] []) = .failure ∧
    frame (readChunk (start l2.bytes [.bytes 32] [.done 0]) 32) = .ok 7 exRecord ∧
    frame (readChunk (start l2.bytes [.bytes 20] []) 20) = .fail .incompletePacket (.wlen 20) ∧
    nextFlushAnswer { start l2.bytes [.bytes 32] [.done 0] with draws := 1 } = .done 0 ∧
    nextFlushAnswer { start l2.bytes [.bytes 32] [.failure] with draws := 1 } = .failure := by decide

/-- IterationForgetsRegisters: two states with other registers, the same answers. -/
theorem witness_forgets :
    let s := start l2.bytes [.bytes 32] [.done 0]
    let s' := { full .flush .boundary with stream := Memory.ofBytes 32 l2.bytes, readQ := [.bytes 32], flushQ := [.done 0] }
    s.stopreq = s'.stopreq ∧ nextReadAnswer s = nextReadAnswer s' ∧ readChunk s 32 = readChunk s' 32 ∧
    nextFlushAnswer { s with draws := s.draws + 1 } = nextFlushAnswer { s' with draws := s'.draws + 1 } ∧
    s.window ≠ s'.window := by decide

/-- G4 of 95_test_vectors, in short: a wrong sum, then a good packet and a FLUSH that fails. -/
def g4 : List ScriptEntry := [⟨some l15, false, false⟩, ⟨some l2, false, true⟩]

/-- The state that presents G4. -/
def g4Start : State := start (l15.bytes ++ l2.bytes) [.bytes 32, .bytes 32] [.failure]

/-- RunMatchesReference: a run that follows G4. -/
theorem witness_script : g4Start.stopreq = false ∧ g4Start.ending = none ∧
    FollowsScript g4 g4Start (iterState (iterState g4Start)) := by
  refine ⟨by decide, by decide, ?_⟩
  refine .next _ _ _ (iterState g4Start) _ ⟨⟨32, by decide, by decide⟩, ?_⟩ rfl (by decide) rfl ?_
  · intro c o m hc hf
    cases hc
    have hl : frame l15 = .fail .checksumMismatch (.sums 0xDF 0xDE (some 5)) := by decide
    rw [hl] at hf
    cases hf
  · refine .failed _ _ _ _ ⟨⟨32, by decide, by decide⟩, ?_⟩ rfl (by decide)
    intro c o m _ _
    exact ⟨fun _ => by decide, fun _ => rfl⟩

/-- RunMatchesReference: one iteration and a stop request raised in it (G1's end). -/
theorem witness_script_stop :
    FollowsScript [⟨some (shortChunk []), true, false⟩] (start [] [.bytes 0] [])
      (iterState (ctlStop (iterState (start [] [.bytes 0] [])))) := by
  refine .stopped _ _ _ (iterState (start [] [.bytes 0] [])) _ ⟨⟨0, by decide, by decide⟩, ?_⟩ rfl (by decide) rfl rfl
  intro c o m hc hf
  cases hc
  have hl : frame (shortChunk []) = .fail .incompletePacket (.wlen 0) := by decide
  rw [hl] at hf
  cases hf

/-- G4's reference result, from 95_test_vectors. -/
theorem test_run_g4 : run g4 = ⟨[exRecord], [.checksumMismatch, .ok], some .stoppedErr⟩ := by decide

/-- NoValueReadFaults: no record stands in MEAS after reset. -/
theorem witness_noRecord : ∀ m, State.reset.meas ≠ MeasRegs.ofRecord m := by
  intro m h
  cases h

/-- NoValueReadFaults at reset; TooLongWindowRefused at 33 and 63. -/
theorem witness_stops :
    State.reset.window = none ∧ State.reset.cand = none ∧ State.reset.meas ≠ MeasRegs.ofRecord exRecord ∧
    State.reset.status ≠ some .ok ∧ State.reset.off = none ∧
    ({ full .chksum .op with cand := some c5, off := none } : State).cand = some c5 ∧ checksumOk c5 = false ∧
    ({ full .decode .op with off := none } : State).cand = some ex ∧
    faultOf (exec (.chksum .cand) { full .chksum .op with cand := some c5, off := none }) = some (.noValue .off) ∧
    faultOf (exec (.decode .cand) { full .decode .op with off := none }) = some (.noValue .off) ∧
    faultOf (exec .emit { full .emit .op with status := some .headerNotFound }) = some (.noValue .meas) ∧
    faultOf (exec .emit { full .emit .op with meas := MeasRegs.unvalidated exRecord }) =
      some (.noValue .meas) ∧
    State.reset.status = none ∧ 32 < (33#6).toNat ∧ 32 < (63#6).toNat ∧
    faultOf (exec .emit State.reset) = some (.noValue .meas) ∧
    refusalOf (exec (.frame (.pins 33 (Vector.replicate 32 0))) State.reset) = some (.windowTooLong 33) := by decide

end Sys2Proof.Tests
end

section
/-! PROOFS, the state (10_state). What the core fetches at each place of the sequencer, and what no operation takes
back. -/

namespace Sys2Proof.Machine

/-! The step, by the input that is due. -/

theorem step_of_no_input {s : State} (hi : s.inputs = []) : step s = coreStep s := by
  simp [step, hi]

theorem step_of_pass {s : State} {is : List Input} (hi : s.inputs = .pass :: is) :
    step s = coreStep { s with inputs := is } := by
  simp [step, hi]

theorem step_of_input {s : State} {i : Input} {is : List Input} (hi : s.inputs = i :: is) (hp : i ≠ .pass) :
    step s = .next (applyInput i { s with inputs := is }) := by
  cases i <;> simp_all [step]

/-! The fetch, by the place of the sequencer (R116). -/

theorem fetch_of_stopped {s : State} (h : s.phase = .stoppedOk ∨ s.phase = .stoppedErr) : fetch s = .wait := by
  simp [fetch, h]

theorem fetch_of_boundary {s : State} (hq : s.seq = .boundary) (hok : s.phase ≠ .stoppedOk)
    (herr : s.phase ≠ .stoppedErr) : fetch s = .boundary := by
  simp [fetch, hq, hok, herr]

theorem fetch_of_report {s : State} (hq : s.seq = .report) (hok : s.phase ≠ .stoppedOk)
    (herr : s.phase ≠ .stoppedErr) : fetch s = .stage .diag := by
  simp [fetch, hq, hok, herr]

theorem fetch_of_idle {s : State} (hp : s.phase = .idle) (hq : s.seq = .op) : fetch s = fetchRequest s.port := by
  simp [fetch, hp, hq]

theorem fetch_of_running {s : State} {p : Phase} (hp : s.phase = p) (hq : s.seq = .op) (hr : p.running = true) :
    fetch s = fetchStage p := by
  cases p <;> simp_all [fetch, Phase.running]

theorem coreStep_of_stage {s : State} {i : Instr} (h : fetch s = .stage i) : coreStep s = exec i s := by
  simp [coreStep, h]

/-- In READ .. FLUSH the core runs the operation of the phase. -/
theorem coreStep_of_running {s : State} {p : Phase} {i : Instr} (hp : s.phase = p) (hq : s.seq = .op)
    (hr : p.running = true) (hi : fetchStage p = .stage i) : coreStep s = exec i s :=
  coreStep_of_stage ((fetch_of_running hp hq hr).trans hi)

theorem coreStep_of_boundary {s : State} (hq : s.seq = .boundary) (hok : s.phase ≠ .stoppedOk)
    (herr : s.phase ≠ .stoppedErr) : coreStep s = .next (iterationBoundary s) := by
  simp [coreStep, fetch_of_boundary hq hok herr]

theorem coreStep_of_report {s : State} (hq : s.seq = .report) (hok : s.phase ≠ .stoppedOk)
    (herr : s.phase ≠ .stoppedErr) : coreStep s = exec .diag s :=
  coreStep_of_stage (fetch_of_report hq hok herr)

theorem coreStep_of_wait {s : State} (h : fetch s = .wait) : coreStep s = .next s := by
  simp [coreStep, h]

theorem fetchRequest_of_ok {bs : List Byte} {i : Instr} (hb : bs ≠ []) (hd : decode bs = .ok i) :
    fetchRequest bs = .direct i := by
  cases bs with
  | nil => exact absurd rfl hb
  | cons b bs => simp [fetchRequest, hd]

theorem fetchRequest_of_error {bs : List Byte} {e : DecodeError} (hb : bs ≠ []) (hd : decode bs = .error e) :
    fetchRequest bs = .reject e := by
  cases bs with
  | nil => exact absurd rfl hb
  | cons b bs => simp [fetchRequest, hd]

/-! What no operation takes back. -/

/-- What every operation keeps of the state: STREAM and `STOPREQ` as they were, POS not lowered, nothing sent taken back. -/
structure Onward (s t : State) : Prop where
  stream : t.stream = s.stream
  stopreq : t.stopreq = s.stopreq
  pos : s.pos ≤ t.pos
  trace : s.trace <+: t.trace

theorem Onward.trans {s t u : State} (h : Onward s t) (k : Onward t u) : Onward s u where
  stream := k.stream.trans h.stream
  stopreq := k.stopreq.trans h.stopreq
  pos := h.pos.trans k.pos
  trace := h.trace.trans k.trace

theorem Quiet.onward {s t : State} (h : Quiet s t) : Onward s t :=
  ⟨h.stream, h.stopreq, h.pos.ge, by rw [h.trace]⟩

theorem takeFatal_onward (s : State) : Onward s (takeFatal s) := by
  refine ⟨by simp, by simp, by simp, ?_⟩
  unfold takeFatal
  split
  · simp
  · exact List.prefix_rfl

theorem iterationBoundary_onward (s : State) : Onward s (iterationBoundary s) := by
  refine ⟨by simp, by simp, by simp, ?_⟩
  unfold iterationBoundary
  split
  · simp
  · exact List.prefix_rfl

theorem readDone_onward (k : Fin 33) (s : State) : Onward s (readDone k s) := by
  constructor <;> simp [readDone]

theorem readFailed_onward (s : State) : Onward s (readFailed s) := by
  refine Onward.trans ?_ (takeFatal_onward _)
  constructor <;> simp

theorem readState_onward (s : State) : Onward s (readState s) := by
  rcases readState_cases s with ⟨-, e⟩ | ⟨k, -, e⟩ <;> rw [e]
  · exact readFailed_onward s
  · exact readDone_onward k s

theorem flushState_onward (s : State) : Onward s (flushState s) := by
  rcases flushState_cases s with ⟨-, e⟩ | ⟨late, -, e⟩ <;> rw [e]
  · refine Onward.trans ?_ (takeFatal_onward _)
    constructor <;> simp
  · constructor <;> simp [flushDone]

theorem emitState_onward (m : Measurement) (s : State) : Onward s (emitState m s) := by
  constructor <;> simp

theorem diagState_onward (k : Status) (s : State) : Onward s (diagState k s) := by
  constructor <;> simp

theorem iterOn_onward (c : RawChunk) (s : State) : Onward s (iterOn c s) := by
  have hq := stFrame_quiet c s
  unfold iterOn
  cases hf : stFrame c s with
  | ok a t =>
    rw [hf] at hq
    exact hq.onward.trans ((emitState_onward a.2 t).trans ((diagState_onward .ok _).trans (flushState_onward _)))
  | fail k i t =>
    rw [hf] at hq
    exact (hq.trans (takeFailure_quiet k i t)).onward.trans (diagState_onward k _)

/-! A whole pass, by what it meets (R115). -/

theorem iterState_of_stop {s : State} (hs : s.stopreq = true) : iterState s = iterationBoundary s := by
  simp [iterState, hs]

theorem iterState_of_failure {s : State} (hs : s.stopreq = false) (hr : nextReadAnswer s = .failure) :
    iterState s = readFailed (iterationBoundary s) := by
  simp [iterState, hs, hr]

theorem iterState_of_bytes {s : State} {k : Fin 33} (hs : s.stopreq = false) (hr : nextReadAnswer s = .bytes k) :
    iterState s = iterOn (readChunk s k) (readDone k (iterationBoundary s)) := by
  simp [iterState, hs, hr]

theorem iterState_onward (s : State) : Onward s (iterState s) := by
  have hb := iterationBoundary_onward s
  cases hs : s.stopreq with
  | true => rw [iterState_of_stop hs]; exact hb
  | false =>
    cases hr : nextReadAnswer s with
    | failure => rw [iterState_of_failure hs hr]; exact hb.trans (readFailed_onward _)
    | bytes k => rw [iterState_of_bytes hs hr]; exact hb.trans ((readDone_onward k _).trans (iterOn_onward _ _))

/-- EMIT sends the record that `MEAS` and `STATUS` give. -/
theorem execEmit_next {s t : State} (h : execEmit s = .next t) : ∃ m, s.record? = some m ∧ t = emitState m s := by
  unfold execEmit at h
  split at h
  · cases h; exact ⟨_, ‹_›, rfl⟩
  · cases h

/-- DIAG sends the kind that `STATUS` holds. -/
theorem execDiag_next {s t : State} (h : execDiag s = .next t) : ∃ k, s.status = some k ∧ t = diagState k s := by
  unfold execDiag at h
  split at h
  · cases h; exact ⟨_, ‹_›, rfl⟩
  · cases h

/-- No operation changes STREAM or `STOPREQ`, lowers POS or takes a transaction back. -/
theorem exec_onward {i : Instr} {s t : State} (h : exec i s = .next t) : Onward s t := by
  by_cases hi : i ≠ .iter ∧ i ≠ .read ∧ i ≠ .emit ∧ i ≠ .diag ∧ i ≠ .flush
  · exact (exec_datapath_quiet h hi).onward
  cases i with
  | iter => cases h; exact iterState_onward s
  | read => cases h; exact readState_onward s
  | flush => cases h; exact flushState_onward s
  | emit => obtain ⟨m, -, rfl⟩ := execEmit_next h; exact emitState_onward m s
  | diag => obtain ⟨k, -, rfl⟩ := execDiag_next h; exact diagState_onward k s
  | _ => simp at hi

/-- What every operation keeps, every move of the core keeps, direct requests included. -/
theorem coreStep_onward {s t : State} (h : coreStep s = .next t) : Onward s t := by
  rcases coreStep_cases h with ⟨i, -, hx⟩ | ⟨i, -, hx⟩ | ⟨-, rfl⟩ | ⟨-, rfl⟩
  · exact exec_onward hx
  · obtain ⟨hs, hq, hp, ht⟩ := exec_onward hx
    exact ⟨hs, hq, hp, ht⟩
  · exact iterationBoundary_onward s
  · exact ⟨rfl, rfl, le_rfl, List.prefix_rfl⟩

end Sys2Proof.Machine
end

section
/-! PROOFS, the state (10_state). The statements that follow from what every operation keeps, the fetch, and the reads of
registers without a value. -/

namespace Sys2Proof.Machine

/-- An input that lands leaves STREAM, POS and what the channels carried alone. -/
theorem applyInput_outside (i : Input) (s : State) :
    (applyInput i s).stream = s.stream ∧ (applyInput i s).pos = s.pos ∧ (applyInput i s).trace = s.trace := by
  cases i with
  | start => simp only [applyInput, ctlStart]; split <;> simp
  | _ => simp [applyInput, ctlStop, ctlReset]

/-- CTL.reset alone clears a set `STOPREQ`. -/
theorem applyInput_stopreq {i : Input} {s : State} (hi : i ≠ .reset) (hs : s.stopreq = true) :
    (applyInput i s).stopreq = true := by
  cases i with
  | reset => exact absurd rfl hi
  | start => simp only [applyInput, ctlStart]; split <;> exact hs
  | stop => rfl
  | _ => exact hs

/-- Settles O53, from what the core's moves and the inputs keep. -/
theorem streamAndTraceOnlyGrow : Obligations.StreamAndTraceOnlyGrow := by
  intro s t h
  rcases step_cases h with ⟨-, hc⟩ | ⟨is, -, hc⟩ | ⟨i, is, -, -, rfl⟩
  · obtain ⟨hs, -, hp, ht⟩ := coreStep_onward hc
    exact ⟨hs, hp, ht⟩
  · obtain ⟨hs, -, hp, ht⟩ := coreStep_onward hc
    exact ⟨hs, hp, ht⟩
  · obtain ⟨hs, hp, ht⟩ := applyInput_outside i { s with inputs := is }
    exact ⟨hs, hp.ge, by rw [ht]⟩

/-- Settles O4: CTL.stop lands as a step of its own, no move of the core writes the latch, and of the inputs only
CTL.reset clears it. -/
theorem stopRequestIsLatched : Obligations.StopRequestIsLatched := by
  refine ⟨fun s is hi => step_of_input hi (by simp), fun s t hs hr h => ?_⟩
  rcases step_cases h with ⟨-, hc⟩ | ⟨is, -, hc⟩ | ⟨i, is, hi, -, rfl⟩
  · exact (coreStep_onward hc).stopreq.trans hs
  · exact (coreStep_onward hc).stopreq.trans hs
  · exact applyInput_stopreq (by rintro rfl; simp [hi] at hr) hs

/-- Settles O5: the step is the boundary's move, written out with and without a stop request. -/
theorem boundaryTakesStopRequest : Obligations.BoundaryTakesStopRequest := by
  intro s hq hok herr hi
  refine ⟨iterationBoundary s, (step_of_no_input hi).trans (coreStep_of_boundary hq hok herr),
    by constructor <;> simp, by simp, by simp, by simp, by simp, by simp, by simp, by simp, by simp, ?_, ?_⟩
  · intro h; simp [boundary_stop h]
  · intro h; simp [boundary_go h]

/-- Settles O1, by the definition of the reset state. -/
theorem resetLeavesNoValues : Obligations.ResetLeavesNoValues :=
  ⟨rfl, rfl, rfl, rfl, rfl, rfl, rfl, rfl, rfl, rfl⟩

/-- Settles O9, from what the core fetches at each place and from the inputs that land. -/
theorem stepRunsSelectedOperation : Obligations.StepRunsSelectedOperation := by
  refine ⟨fun s hi => ?_, fun s n is hi => step_of_input hi (by simp), fun s is hi => step_of_pass hi,
    fun s hi => step_of_no_input hi⟩
  rw [step_of_no_input hi]
  refine ⟨?_, ?_, ?_, fun hq hok herr => coreStep_of_report hq hok herr⟩
  · intro hp hq i hb hd
    simp [coreStep, fetch_of_idle hp hq, fetchRequest_of_ok hb hd]
  · intro hp hq e hb hd
    simp [coreStep, fetch_of_idle hp hq, fetchRequest_of_error hb hd]
  · intro hq
    refine ⟨?_, ?_, ?_, ?_, ?_, ?_⟩ <;> exact fun hp => coreStep_of_running hp hq rfl rfl

/-! Reads of registers without a value (R22). -/

theorem withWindow_noValue {s : State} (h : s.window = none) (f : RawChunk → State) :
    withWindow .regs s f = .fault (.noValue .win) := by
  simp [withWindow, h]

theorem readPacket_noValue {s : State} (h : s.cand = none) (k : Packet → Host.Outcome State Fault Refusal) :
    readPacket .cand s k = .fault (.noValue .cand) := by
  simp [readPacket, h]

theorem readOff_noValue {s : State} (h : s.off = none) (k : Option (Fin 30) → Host.Outcome State Fault Refusal) :
    readOff .cand s k = .fault (.noValue .off) := by
  simp [readOff, h]

theorem execEmit_noRecord {s : State} (h : ∀ m, s.record? ≠ some m) : execEmit s = .fault (.noValue .meas) := by
  simp [execEmit, Option.eq_none_iff_forall_ne_some.2 h]

theorem execDiag_noStatus {s : State} (h : s.status = none) : execDiag s = .fault (.noValue .status) := by
  simp [execDiag, h]

/-- A CHKSUM on `CAND` that fails reads `OFF` for its info. -/
theorem execChksum_noOff {s : State} {p : Packet} (ho : s.off = none) (hc : s.cand = some p)
    (hf : checksumOk p = false) : execChksum .cand s = .fault (.noValue .off) := by
  simp [execChksum, readPacket, hc, hf, readOff_noValue ho]

/-- A DECODE on `CAND` in its place reads `OFF` for its info. -/
theorem execDecode_noOff {s : State} {p : Packet} (ho : s.off = none) (hc : s.cand = some p)
    (hp : s.phase = .decode) (hq : s.seq = .op) : execDecode .cand s = .fault (.noValue .off) := by
  simp [execDecode, readPacket, hc, (atOp_iff s .decode).2 ⟨hp, hq⟩, readOff_noValue ho]

/-- Settles O55, one read of an empty register after another. -/
theorem noValueReadFaults : Obligations.NoValueReadFaults := by
  intro s
  refine ⟨fun h => ⟨withWindow_noValue h _, withWindow_noValue h _⟩, fun h => ?_,
    fun ho => ⟨fun p hc hf => execChksum_noOff ho hc hf, fun p hc hp hq => execDecode_noOff ho hc hp hq⟩,
    fun h => execEmit_noRecord fun m hm => h (stateRecord?_iff.1 hm).1,
    fun h => execEmit_noRecord fun m hm => h m (stateRecord?_iff.1 hm).2,
    execEmit_unvalidated, execDiag_noStatus⟩
  refine ⟨?_, ?_, ?_, ?_, ?_, ?_, ?_, ?_⟩ <;> exact readPacket_noValue h _

end Sys2Proof.Machine
end

section
/-! PROOFS, the state (10_state). A valid packet is PKT of its own record (R57, R60, R104): what EMIT sends stood in the
stream as the packet that was found there. -/

namespace Sys2Proof.Machine

theorem le_lt (bs : List Byte) : le bs < 256 ^ bs.length := by
  induction bs with
  | nil => simp [le]
  | cons b bs ih =>
    have := b.isLt
    simp only [le, List.length_cons, Nat.pow_succ]
    omega

/-- Byte `k` of `le(S)` is `S[k]` (R8). -/
theorem le_div_mod (bs : List Byte) (k : Nat) (hk : k < bs.length) : le bs / 256 ^ k % 256 = bs[k].toNat := by
  induction bs generalizing k with
  | nil => simp at hk
  | cons b bs ih =>
    have hb := b.isLt
    cases k with
    | zero => simp only [le, List.getElem_cons_zero]; omega
    | succ k =>
      have hd : (b.toNat + 256 * le bs) / 256 = le bs := by omega
      rw [le, Nat.pow_succ', ← Nat.div_div_eq_div_mul, hd]
      exact ih k (by simpa using hk)

/-- Byte `k` of a field value is byte `k` of the bytes it was assembled from (R60, R32). -/
theorem byteOf_le {n : Nat} (bs : List Byte) (hn : n = 8 * bs.length) (k : Nat) (hk : k < bs.length) :
    byteOf (BitVec.ofNat n (le bs)) k = bs[k] := by
  have hlt : le bs < 2 ^ n := by
    rw [hn, Nat.pow_mul]
    exact le_lt bs
  apply BitVec.eq_of_toNat_eq
  rw [byteOf, BitVec.extractLsb'_toNat, BitVec.toNat_ofNat, Nat.mod_eq_of_lt hlt, Nat.shiftRight_eq_div_pow,
    Nat.pow_mul]
  exact le_div_mod bs k hk

theorem ofNat_le_singleton (b : Byte) : BitVec.ofNat 8 (le [b]) = b := by
  simp [le]

/-- A packet written out byte by byte. -/
theorem packet_toList (p : Packet) :
    p.toList = [p[0], p[1], p[2], p[3], p[4], p[5], p[6], p[7], p[8], p[9], p[10], p[11], p[12], p[13], p[14], p[15]] := by
  apply List.ext_getElem (by simp)
  intro i hi _
  have : i < 16 := by simpa using hi
  interval_cases i <;> simp

/-- The packet bytes of a field, by its row of FIELD_LAYOUT (R52, R54). -/
def fieldBytes (p : Packet) : Field → List Byte
  | .id => [p[3]]
  | .systemTimeMs => [p[4], p[5], p[6], p[7]]
  | .distanceMm => [p[8], p[9], p[10]]
  | .signalStatus => [p[11]]
  | .signalStrength => [p[12], p[13]]
  | .signalAccuracy => [p[14]]

theorem fieldNat_eq_le_fieldBytes (p : Packet) (f : Field) : fieldNat p f = le (fieldBytes p f) := by
  rw [fieldNat, payloadBytes, packet_toList]
  cases f <;> rfl

/-- Bytes 0..14 of a packet with the header are those of PKT of its record. -/
theorem pktBody_recordOf {p : Packet} (h : headerMatches p = true) :
    pktBody (recordOf p) = p.toList.take 15 := by
  obtain ⟨h0, h1, h2⟩ := (headerMatches_iff p).1 h
  simp [pktBody, recordOf, fieldId, fieldTime, fieldDist, fieldStatus, fieldStrength, fieldAcc,
    fieldNat_eq_le_fieldBytes, fieldBytes, ofNat_le_singleton, byteOf_le, packet_toList p, h0, h1, h2]

/-- PKT of the record of a valid packet is that packet (R104). -/
theorem pkt_recordOf {p : Packet} (h : validPacket p = true) : pkt (recordOf p) = p := by
  obtain ⟨hh, hc⟩ := Bool.and_eq_true_iff.1 h
  have hlast : checksum p = p[15] := by simpa [checksumOk] using hc
  apply Vector.toList_inj.1
  have hbody : p.toList = p.toList.take 15 ++ [p[15]] := by simp [packet_toList p]
  rw [hbody, ← hlast, checksum, ← pktBody_recordOf hh]
  rfl

end Sys2Proof.Machine
end

section
/-! PROOFS, the state (10_state). From a state that meets the sequencer's invariant every step answers a next state, and
that state meets it again (R112, R160): one lemma per place of the sequencer. -/

namespace Sys2Proof.Machine

/-! What the invariant says at every place. -/

/-- The clauses of `SeqInv` that name no place: no request pending, STREAM in canonical form, and every record the sink
received stood in the stream (R160). -/
structure Grounded (s : State) : Prop where
  port_empty : s.port = []
  stream_wf : Memory.wf s.stream = true
  emitted_stood : ∀ m ∈ s.emitted, StoodInStream s (pkt m).toList

theorem SeqInv.grounded {s : State} (h : SeqInv s) : Grounded s := ⟨h.port_empty, h.stream_wf, h.emitted_stood⟩

/-- A move that only appends transactions, none of them to the sink, keeps the ground. -/
theorem Grounded.onward {s t : State} (h : Grounded s) (k : Onward s t) (hp : t.port = s.port)
    (he : t.emitted = s.emitted) : Grounded t where
  port_empty := hp.trans h.port_empty
  stream_wf := k.stream ▸ h.stream_wf
  emitted_stood := fun m hm => (h.emitted_stood m (he ▸ hm)).mono k.stream k.pos

theorem Grounded.quiet {s t : State} (h : Grounded s) (k : Quiet s t) : Grounded t :=
  h.onward k.onward k.port (by rw [State.emitted, k.trace, State.emitted])

/-! The invariant, by the place that a move leads to. -/

/-- A place at which nothing but the ground is promised. -/
theorem Grounded.seqInv_of_free {t : State} (h : Grounded t) (hr : t.seq ≠ .report)
    (hp : t.seq = .op → t.phase ∉ [.locate, .chksum, .decode, .emit]) : SeqInv t where
  port_empty := h.port_empty
  idle_point := fun _ => hr
  stream_wf := h.stream_wf
  locate_window := fun h1 h2 => absurd (hp h2) (by simp [h1])
  chksum_candidate := fun h1 h2 => absurd (hp h2) (by simp [h1])
  decode_candidate := fun h1 h2 => absurd (hp h2) (by simp [h1])
  emit_record := fun h1 h2 => absurd (hp h2) (by simp [h1])
  report_status := fun h1 => absurd h1 hr
  emitted_stood := h.emitted_stood

/-- A stage is next: only the promise of its own phase is not void. -/
theorem Grounded.seqInv_of_op {t : State} (h : Grounded t) (hq : t.seq = .op)
    (hl : t.phase = .locate → ∃ c, t.window = some c ∧ StoodInStream t c.bytes)
    (hc : t.phase = .chksum → ∃ p o, t.cand = some p ∧ headerMatches p = true ∧ StoodInStream t p.toList ∧
      t.found = some true ∧ t.off = some o ∧ o.val ≤ 16)
    (hd : t.phase = .decode → ∃ p, t.cand = some p ∧ validPacket p = true ∧ StoodInStream t p.toList ∧
      t.sum = some p[15] ∧ t.sumok = some true ∧ ∃ o, t.off = some o)
    (he : t.phase = .emit → ∃ m, t.record? = some m ∧ StoodInStream t (pkt m).toList) : SeqInv t :=
  ⟨h.port_empty, by simp [hq], h.stream_wf, fun hp _ => hl hp, fun hp _ => hc hp, fun hp _ => hd hp,
    fun hp _ => he hp, by simp [hq], h.emitted_stood⟩

/-- Before a DIAG: `STATUS` holds a value. -/
theorem Grounded.seqInv_of_report {t : State} {k : Status} (h : Grounded t) (hr : t.seq = .report)
    (hp : t.phase ≠ .idle) (hk : t.status = some k) : SeqInv t := by
  refine ⟨h.port_empty, fun h1 => absurd h1 hp, h.stream_wf, ?_, ?_, ?_, ?_, fun _ => ⟨k, hk⟩, h.emitted_stood⟩ <;>
    simp [hr]

/-- An operation of an iteration: a failure leads to its DIAG (R140), so what is left to show is its success. -/
theorem Grounded.seqInv_of_conclude {α : Type} {s : State} {r : OpResult α} (h : Grounded s)
    (hr : s.phase.running = true) (hq : Quiet s r.state) (hok : ∀ a u, r = .ok a u → Grounded u → SeqInv u) :
    SeqInv r.conclude := by
  cases r with
  | ok a u => exact hok a u rfl (h.quiet hq)
  | fail k i u =>
    have hu : u.phase.running = true := hq.running.trans hr
    have hp : u.phase ≠ .idle := by rintro e; simp [e, Phase.running] at hu
    exact (h.quiet (hq.trans (takeFailure_quiet k i u))).seqInv_of_report (by simp [takeFailure, hu]) (by simpa)
      (takeFailure_status ..)

/-! The moves. -/

theorem iterationBoundary_seqInv {s : State} (h : Grounded s) : SeqInv (iterationBoundary s) := by
  have hg : Grounded (iterationBoundary s) := by
    refine h.onward (iterationBoundary_onward s) (by simp) ?_
    unfold iterationBoundary
    split <;> simp [State.emitted]
  refine hg.seqInv_of_free (by simp) ?_
  cases hs : s.stopreq
  · simp [boundary_go hs]
  · simp [boundary_stop hs]

/-- TransportFailure in an iteration ends the run (R135). -/
theorem takeFatal_seqInv {s : State} (h : Grounded s) (hr : s.phase.running = true) : SeqInv (takeFatal s) := by
  have hg : Grounded (takeFatal s) :=
    h.onward (takeFatal_onward s) (by simp) (by simp [takeFatal, hr, State.emitted])
  exact hg.seqInv_of_free (by simp [takeFatal, hr]) (by simp [takeFatal, hr])

/-- READ in its place: the window that LOCATE takes stood in the stream (R36), or the run has failed. -/
theorem readState_seqInv {s : State} (h : Grounded s) (hp : s.phase = .read) (hq : s.seq = .op) :
    SeqInv (readState s) := by
  rcases readState_cases s with ⟨-, e⟩ | ⟨k, -, e⟩ <;> rw [e]
  · refine takeFatal_seqInv (h.onward ?_ rfl ?_) (by simp [hp, Phase.running])
    · constructor <;> simp
    · simp [State.emitted]
  · have hg : Grounded (readDone k s) :=
      h.onward (readDone_onward k s) (by simp [readDone]) (by simp [readDone, State.emitted])
    have hphase : (readDone k s).phase = .locate := by simp [readDone, advance_phase, State.atOp, hp, hq]
    refine hg.seqInv_of_op (by simp [readDone, hq]) (fun _ => ⟨readChunk s k, by simp [readDone], s.pos, ?_, ?_⟩) ?_ ?_ ?_
    · simp [readDone]
    · simp [readDone]
    all_goals simp [hphase]

/-- The candidate at the first hit has the header. -/
theorem headerMatches_slice {w : Window} {o : Fin 30} (h : firstHit w = some o) (h16 : o.val + 16 ≤ 32) :
    headerMatches (slice w o.val h16) = true := by
  have hh : hit w o = true := List.find?_some h
  simpa [headerMatches, hit, slice] using hh

/-- What a LOCATE that succeeds has found and written (R70). -/
theorem stLocate_ok {c : RawChunk} {s u : State} {a : Fin 30 × Packet} (h : stLocate c s = .ok a u) :
    ∃ w o h16, fullWindow c = some w ∧ firstHit w = some o ∧
      u = advance .locate .chksum { s with found := some true, off := some o, cand := some (slice w o.val h16) } := by
  rcases locate_cases c with ⟨_, e⟩ | ⟨w, _, _, e⟩ | ⟨w, o, _, _, _, e⟩ | ⟨w, o, h16, hw, hf, e⟩ <;>
    simp only [stLocate, e] at h <;> cases h
  exact ⟨w, o, h16, hw, hf, rfl⟩

/-- What a CHKSUM that passes has written (R85). -/
theorem stChksum_ok {p : Packet} {off : Option (Fin 30)} {s u : State} {a : Unit} (h : stChksum p off s = .ok a u) :
    checksumOk p = true ∧ u = advance .chksum .decode { s with sum := some (checksum p), sumok := some true } := by
  unfold stChksum at h
  split at h
  · cases h; exact ⟨‹_›, rfl⟩
  · cases h

/-- LOCATE in its place: a candidate with the header, at an offset up to 16, or a failure. -/
theorem stLocate_seqInv {s : State} {c : RawChunk} (h : Grounded s) (hp : s.phase = .locate) (hq : s.seq = .op)
    (hc : StoodInStream s c.bytes) : SeqInv (stLocate c s).conclude := by
  refine h.seqInv_of_conclude (by simp [hp, Phase.running]) (stLocate_quiet c s) fun a u hu hg => ?_
  obtain ⟨w, o, h16, hw, hf, rfl⟩ := stLocate_ok hu
  refine hg.seqInv_of_op (by simp [hq]) ?_ (fun _ => ⟨slice w o.val h16, o, by simp, headerMatches_slice hf h16,
    (slice_stood hw hc o.val h16).mono (by simp) (by simp), by simp, by simp, by omega⟩) ?_ ?_ <;>
    simp [advance_phase, State.atOp, hp, hq]

/-- CHKSUM in its place: the candidate is a valid packet, or a failure. -/
theorem stChksum_seqInv {s : State} {p : Packet} {o : Fin 30} (h : Grounded s) (hp : s.phase = .chksum)
    (hq : s.seq = .op) (hc : s.cand = some p) (ho : s.off = some o) (hh : headerMatches p = true)
    (hst : StoodInStream s p.toList) : SeqInv (stChksum p (some o) s).conclude := by
  refine h.seqInv_of_conclude (by simp [hp, Phase.running]) (stChksum_quiet p _ s) fun a u hu hg => ?_
  obtain ⟨hok, rfl⟩ := stChksum_ok hu
  have hsum : checksum p = p[15] := by simpa [checksumOk] using hok
  refine hg.seqInv_of_op (by simp [hq]) ?_ ?_ (fun _ => ⟨p, by simp [hc], by simp [validPacket, hh, hok],
    hst.mono (by simp) (by simp), by simp [hsum], by simp, o, by simp [ho]⟩) ?_ <;>
    simp [advance_phase, State.atOp, hp, hq]

/-- DECODE in its place: the record of a valid packet, whose PKT is that packet, stands beside `STATUS` OK. -/
theorem stDecode_seqInv {s : State} {p : Packet} (off : Option (Fin 30)) (h : Grounded s) (hp : s.phase = .decode)
    (hq : s.seq = .op) (hv : validPacket p = true) (hst : StoodInStream s p.toList) : SeqInv (stDecode p off s) := by
  have hg := h.quiet (stDecode_quiet p off s)
  rw [stDecode_staged p off ((atOp_iff s .decode).2 ⟨hp, hq⟩)] at hg ⊢
  refine hg.seqInv_of_op hq (by simp) (by simp) (by simp) fun _ => ⟨recordOf p, stateRecord?_iff.2 ⟨rfl, rfl⟩, ?_⟩
  rw [pkt_recordOf hv]
  exact hst

/-- EMIT in its place: the record it sends stood in the stream, and the DIAG is next. -/
theorem emitState_seqInv {s : State} {m : Measurement} (h : Grounded s) (hp : s.phase = .emit) (hq : s.seq = .op)
    (hm : s.record? = some m) (hst : StoodInStream s (pkt m).toList) : SeqInv (emitState m s) := by
  have hg : Grounded (emitState m s) := by
    refine ⟨h.port_empty, h.stream_wf, fun n hn => ?_⟩
    rcases emitted_append (emitState_trace s m) hn with hn | hn
    · exact h.emitted_stood n hn
    · cases List.mem_singleton.1 hn
      exact hst
  exact hg.seqInv_of_report (by simp [State.atOp, hp, hq]) (by simp [hp]) (stateRecord?_iff.1 hm).1

/-- DIAG in its place leads to FLUSH or to the boundary (R116). -/
theorem diagState_seqInv {s : State} (k : Status) (h : Grounded s) (hq : s.seq = .report) : SeqInv (diagState k s) := by
  have hg : Grounded (diagState k s) := h.onward (diagState_onward k s) (by simp) (by simp [State.emitted])
  by_cases hp : s.phase = .emit
  · exact hg.seqInv_of_free (by simp [diagState, afterReport, hp, hq]) (by simp [diagState, afterReport, hp, hq])
  · exact hg.seqInv_of_free (by simp [diagState, afterReport, hp, hq]) (by simp [diagState, afterReport, hp, hq])

/-- FLUSH in its place leads to the boundary, or the run has failed. -/
theorem flushState_seqInv {s : State} (h : Grounded s) (hp : s.phase = .flush) (hq : s.seq = .op) :
    SeqInv (flushState s) := by
  rcases flushState_cases s with ⟨-, e⟩ | ⟨late, -, e⟩ <;> rw [e]
  · refine takeFatal_seqInv (h.onward ?_ rfl ?_) (by simp [hp, Phase.running])
    · constructor <;> simp
    · simp [State.emitted]
  · have hseq : (flushDone late s).seq = .boundary := by simp [flushDone, State.atOp, hp, hq]
    have hg : Grounded (flushDone late s) := by
      refine h.onward ?_ rfl ?_
      · constructor <;> simp [flushDone]
      · simp [flushDone, State.emitted]
    exact hg.seqInv_of_free (by simp [hseq]) (by simp [hseq])

/-! A step. -/

/-- The core's move at each place: the registers that it reads hold values, so it answers a next state (R22, R123). -/
theorem coreStep_seqInv {s : State} (h : SeqInv s) : ∃ t, coreStep s = .next t ∧ SeqInv t := by
  have hg := h.grounded
  by_cases hstop : s.phase = .stoppedOk ∨ s.phase = .stoppedErr
  · exact ⟨s, coreStep_of_wait (fetch_of_stopped hstop), h⟩
  obtain ⟨hok, herr⟩ := not_or.1 hstop
  cases hq : s.seq with
  | boundary => exact ⟨_, coreStep_of_boundary hq hok herr, iterationBoundary_seqInv hg⟩
  | report =>
    obtain ⟨k, hk⟩ := h.report_status hq
    exact ⟨diagState k s, by simp [coreStep_of_report hq hok herr, exec, execDiag, hk], diagState_seqInv k hg hq⟩
  | op =>
    cases hp : s.phase with
    | idle => exact ⟨s, coreStep_of_wait (by rw [fetch_of_idle hp hq, h.port_empty]; rfl), h⟩
    | read => exact ⟨_, coreStep_of_running hp hq rfl rfl, readState_seqInv hg hp hq⟩
    | locate =>
      obtain ⟨c, hw, hst⟩ := h.locate_window hp hq
      refine ⟨_, (coreStep_of_running hp hq rfl rfl).trans ?_, stLocate_seqInv hg hp hq hst⟩
      exact withWindow_of_windowAt (src := .regs) _ hw
    | chksum =>
      obtain ⟨p, o, hc, hh, hst, -, ho, -⟩ := h.chksum_candidate hp hq
      exact ⟨_, (coreStep_of_running hp hq rfl rfl).trans (execChksum_cand hc ho),
        stChksum_seqInv hg hp hq hc ho hh hst⟩
    | decode =>
      obtain ⟨p, hc, hv, hst, -, -, o, ho⟩ := h.decode_candidate hp hq
      exact ⟨_, (coreStep_of_running hp hq rfl rfl).trans (execDecode_cand hc ho), stDecode_seqInv _ hg hp hq hv hst⟩
    | emit =>
      obtain ⟨m, hm, hst⟩ := h.emit_record hp hq
      refine ⟨emitState m s, (coreStep_of_running hp hq rfl rfl).trans ?_, emitState_seqInv hg hp hq hm hst⟩
      simp [exec, execEmit, hm]
    | flush => exact ⟨_, coreStep_of_running hp hq rfl rfl, flushState_seqInv hg hp hq⟩
    | stoppedOk => exact absurd hp hok
    | stoppedErr => exact absurd hp herr

/-- The inputs due, `STOPREQ` and the pending count are no part of the invariant. -/
theorem SeqInv.with_unread {s : State} (h : SeqInv s) (is : List Input) (b : Bool) (n : Nat) :
    SeqInv { s with inputs := is, stopreq := b, rxq := n } :=
  ⟨h.port_empty, h.idle_point, h.stream_wf, h.locate_window, h.chksum_candidate, h.decode_candidate, h.emit_record,
    h.report_status, h.emitted_stood⟩

/-- Every input that lands keeps the invariant. -/
theorem applyInput_seqInv {s : State} (i : Input) (h : SeqInv s) : SeqInv (applyInput i s) := by
  have hg := h.grounded
  cases i with
  | start =>
    by_cases hi : s.atOp .idle = true
    · have hg' : Grounded { s with seq := .boundary } := ⟨hg.port_empty, hg.stream_wf, hg.emitted_stood⟩
      simpa [applyInput, ctlStart, hi] using hg'.seqInv_of_free (by simp) (by simp)
    · simpa [applyInput, ctlStart, hi] using h
  | reset =>
    have hg' : Grounded (ctlReset s) := ⟨hg.port_empty, hg.stream_wf, hg.emitted_stood⟩
    exact hg'.seqInv_of_free (by simp [ctlReset]) (by simp [ctlReset])
  | pass => exact h
  | stop => exact h.with_unread s.inputs true s.rxq
  | arrive n => exact h.with_unread s.inputs s.stopreq (s.rxq + n)

/-- From a state that meets the invariant a step answers a next state, which meets it again. -/
theorem step_seqInv {s : State} (h : SeqInv s) : ∃ t, step s = .next t ∧ SeqInv t := by
  rcases hi : s.inputs with _ | ⟨i, is⟩
  · rw [step_of_no_input hi]
    exact coreStep_seqInv h
  · by_cases hp : i = .pass
    · subst hp
      rw [step_of_pass hi]
      exact coreStep_seqInv (h.with_unread is s.stopreq s.rxq)
    · exact ⟨_, step_of_input hi hp, applyInput_seqInv i (h.with_unread is s.stopreq s.rxq)⟩

/-- Settles O51, by induction on the number of steps: the invariant gives each step its next state and holds of it. -/
theorem sequencerNeverStops : Obligations.SequencerNeverStops := by
  intro s h n
  induction n generalizing s with
  | zero => exact ⟨s, run_zero s⟩
  | succ n ih =>
    obtain ⟨t, ht, hinv⟩ := step_seqInv h
    rw [run_succ n ht]
    exact ih t hinv

end Sys2Proof.Machine
end

section
/-! PROOFS, the state (10_state). What an iteration leaves, written out: the answer and the bytes of its READ and the answer
of its FLUSH determine it, and no register has a part in it (R10). -/

namespace Sys2Proof.Machine

/-- What is left of a pass from `s` that failed at phase `p`, after its DIAG. -/
def passFailed (p : Phase) (k : Status) (i : Info) (s : State) : State :=
  record (.diag k (some i))
    { clearRegs s with status := some k, info := some i, phase := p, seq := .boundary }

/-- What is left of a pass from `s` that found the valid packet `p` at offset `o`, after its DIAG. -/
def passReported (o : Fin 30) (p : Packet) (s : State) : State :=
  { s with
    found := some true, off := none, cand := none, sum := some (checksum p), sumok := some true,
    meas := MeasRegs.empty, status := some .ok, info := some (.record (some o) (recordOf p)), phase := .flush,
    seq := .op,
    trace := s.trace ++ [.sinkEmit (recordOf p), .diag .ok (some (.record (some o) (recordOf p)))] }

/-- A failed pass keeps no register, so what FRAME left in them before it failed does not matter. -/
theorem passFailed_of_quiet {s u : State} (h : Quiet s u) (p : Phase) (k : Status) (i : Info) :
    passFailed p k i u = passFailed p k i s := by
  simp [passFailed, record, clearRegs, h.trace, h.stopreq, h.stream, h.pos, h.rxq, h.readQ, h.flushQ, h.draws,
    h.inputs, h.port]

/-- A pass whose FRAME fails at a phase before EMIT: the failure is taken and its DIAG sent. -/
theorem iterOn_of_fail {c : RawChunk} {p : Phase} {k : Status} {i : Info} {s : State} (hr : p.running = true)
    (he : p ≠ .emit) (hf : ∃ u, stFrame c s = .fail k i u ∧ u.phase = p) : iterOn c s = passFailed p k i s := by
  obtain ⟨u, hf, hp⟩ := hf
  have hq : Quiet s u := by simpa [hf, OpResult.state] using stFrame_quiet c s
  rw [← passFailed_of_quiet hq]
  simp [iterOn, hf, diagState, afterReport, takeFailure, hp, hr, he, record, passFailed]

/-- Everything the rest of a pass can do after its READ: which of the cases it is depends on the bytes alone. -/
theorem iterOn_cases (c : RawChunk) :
    (∃ p k i, ∀ s : State, s.phase = .locate → s.seq = .op → iterOn c s = passFailed p k i s) ∨
    (∃ o p, ∀ s : State, s.phase = .locate → s.seq = .op → iterOn c s = flushState (passReported o p s)) := by
  rcases locate_cases c with ⟨_, e⟩ | ⟨w, _, _, e⟩ | ⟨w, o, _, _, _, e⟩ | ⟨w, o, h16, _, _, e⟩
  · refine .inl ⟨.locate, .incompletePacket, .wlen c.bytes.length, fun s hp _ => iterOn_of_fail rfl (by simp) ?_⟩
    simp [stFrame, stLocate, e, OpResult.andThen, hp]
  · refine .inl ⟨.locate, .headerNotFound, .noHit, fun s hp _ => iterOn_of_fail rfl (by simp) ?_⟩
    simp [stFrame, stLocate, e, OpResult.andThen, hp]
  · refine .inl ⟨.locate, .headerNotFound, .lateHit o, fun s hp _ => iterOn_of_fail rfl (by simp) ?_⟩
    simp [stFrame, stLocate, e, OpResult.andThen, hp]
  generalize slice w o.val h16 = p at e
  cases hc : checksumOk p with
  | false =>
    refine .inl ⟨.chksum, .checksumMismatch, .sums (checksum p) p[15] (some o),
      fun s hp hq => iterOn_of_fail rfl (by simp) ?_⟩
    simp [stFrame, stLocate, e, OpResult.andThen, stChksum, hc, advance, State.atOp, hp, hq]
  | true =>
    refine .inr ⟨o, p, fun s hp hq => ?_⟩
    simp [iterOn, stFrame, stLocate, e, OpResult.andThen, stChksum, hc, advance, State.atOp, hp, hq, stDecode,
      endDecodeAttempt, succeed, emitState, diagState, afterReport, record, passReported]

/-- The FLUSH's answer depends on the queue and the number of draws alone. -/
theorem nextFlushAnswer_congr {s t : State} (hq : t.flushQ = s.flushQ) (hd : t.draws = s.draws) :
    nextFlushAnswer t = nextFlushAnswer s := by
  simp [nextFlushAnswer, hq, hd]

theorem flushState_of_failure {s : State} (h : nextFlushAnswer s = .failure) : flushState s = flushFailed s := by
  simp [flushState, h]

theorem flushState_of_done {s : State} {late : Nat} (h : nextFlushAnswer s = .done late) :
    flushState s = flushDone late s := by
  simp [flushState, h]

/-- The FLUSH of a pass draws its answer right after the READ. -/
theorem nextFlushAnswer_passReported {s : State} (hs : s.stopreq = false) (k : Fin 33) (o : Fin 30) (p : Packet) :
    nextFlushAnswer (passReported o p (readDone k (iterationBoundary s))) =
      nextFlushAnswer { s with draws := s.draws + 1 } :=
  nextFlushAnswer_congr (by simp [passReported, readDone_go hs]) (by simp [passReported, readDone_go hs])

theorem readDone_boundary_phase {s : State} (hs : s.stopreq = false) (k : Fin 33) :
    (readDone k (iterationBoundary s)).phase = .locate := by
  simp [readDone_go hs]

theorem readDone_boundary_seq {s : State} (hs : s.stopreq = false) (k : Fin 33) :
    (readDone k (iterationBoundary s)).seq = .op := by
  simp [readDone_go hs]

theorem exec_iter_of_iterState {s t : State} (h : iterState s = t) : exec .iter s = .next t :=
  congrArg Host.Outcome.next h

/-- Settles O47, case by case: the stop, the failed READ, and after a READ of the same bytes the failed pass or the FLUSH;
in each what a pass leaves is written out, and no register stands in it. -/
theorem iterationForgetsRegisters : Obligations.IterationForgetsRegisters := by
  intro s s' hstop hread hbytes hflush
  cases hs : s.stopreq with
  | true =>
    have hs' : s'.stopreq = true := hstop ▸ hs
    refine ⟨_, _, [.ended .stoppedOk], exec_iter_of_iterState ((iterState_of_stop hs).trans (boundary_stop hs)),
      exec_iter_of_iterState ((iterState_of_stop hs').trans (boundary_stop hs')), ?_⟩
    simp
  | false =>
    have hs' : s'.stopreq = false := hstop ▸ hs
    cases hr : nextReadAnswer s with
    | failure =>
      have hr' : nextReadAnswer s' = .failure := hread ▸ hr
      refine ⟨_, _, [.srcRead 32 3 .failure, .ended .stoppedErr],
        exec_iter_of_iterState ((iterState_of_failure hs hr).trans (readFailed_go hs)),
        exec_iter_of_iterState ((iterState_of_failure hs' hr').trans (readFailed_go hs')), ?_⟩
      simp
    | bytes k =>
      have hr' : nextReadAnswer s' = .bytes k := hread ▸ hr
      have hi := exec_iter_of_iterState (iterState_of_bytes hs hr)
      have hi' := exec_iter_of_iterState (iterState_of_bytes hs' hr')
      rw [← hbytes k hr] at hi'
      rcases iterOn_cases (readChunk s k) with ⟨p, st, i, hpass⟩ | ⟨o, p, hpass⟩
      · rw [hpass _ (readDone_boundary_phase hs k) (readDone_boundary_seq hs k)] at hi
        rw [hpass _ (readDone_boundary_phase hs' k) (readDone_boundary_seq hs' k)] at hi'
        refine ⟨_, _, [.srcRead 32 3 (.bytes k), .diag st (some i)], hi, hi', ?_⟩
        simp [readDone_go, hs, hs', passFailed]
      · rw [hpass _ (readDone_boundary_phase hs k) (readDone_boundary_seq hs k)] at hi
        rw [hpass _ (readDone_boundary_phase hs' k) (readDone_boundary_seq hs' k)] at hi'
        have ha := nextFlushAnswer_passReported hs k o p
        have ha' := (nextFlushAnswer_passReported hs' k o p).trans hflush.symm
        cases hf : nextFlushAnswer { s with draws := s.draws + 1 } with
        | failure =>
          rw [flushState_of_failure (ha.trans hf)] at hi
          rw [flushState_of_failure (ha'.trans hf)] at hi'
          refine ⟨_, _, [.srcRead 32 3 (.bytes k), .sinkEmit (recordOf p),
            .diag .ok (some (.record (some o) (recordOf p))), .srcFlush .failure, .ended .stoppedErr], hi, hi', ?_⟩
          simp [flushFailed, takeFatal, passReported, readDone_go, hs, hs', Phase.running]
        | done late =>
          rw [flushState_of_done (ha.trans hf)] at hi
          rw [flushState_of_done (ha'.trans hf)] at hi'
          refine ⟨_, _, [.srcRead 32 3 (.bytes k), .sinkEmit (recordOf p),
            .diag .ok (some (.record (some o) (recordOf p))), .srcFlush (.done late)], hi, hi', ?_⟩
          simp [flushDone, passReported, readDone_go, hs, hs', State.atOp, hbytes k hr]

end Sys2Proof.Machine
end

section
/-! PROOFS, the memory (20_memory). What READ and FLUSH leave, written out (R36, R42), the refusal of a window that is
too long (R37), and what READ and FLUSH append to the trace. -/

namespace Sys2Proof.Machine

/-! READ and FLUSH, written out. -/

/-- A transition of R116, written as an update of `PHASE`. -/
theorem advance_eq (p q : Phase) (s : State) :
    advance p q s = { s with phase := if s.phase = p ∧ s.seq = .op then q else s.phase } := by
  by_cases h : s.atOp p = true
  · simp [advance, h, (atOp_iff s p).1 h]
  · simp [advance, h, mt (atOp_iff s p).2 h]

theorem readState_of_bytes {s : State} {k : Fin 33} (h : nextReadAnswer s = .bytes k) :
    readState s = readDone k s := by
  simp [readState, h]

/-- Settles O13: READ is `readDone`, whose window holds the bytes of STREAM from POS on. -/
theorem readReturnsNextStreamBytes : Obligations.ReadReturnsNextStreamBytes := by
  intro s k hk
  refine ⟨readChunk s k, by simp, fun j hj => ?_, ?_⟩
  · rw [List.getElem?_eq_getElem (by simpa using hj)]
    simp
  · calc exec .read s = .next (readDone k s) := congrArg Host.Outcome.next (readState_of_bytes hk)
      _ = _ := congrArg Host.Outcome.next (advance_eq ..)

/-- Settles O14: FLUSH is `flushDone`. -/
theorem flushDiscardsPending : Obligations.FlushDiscardsPending := by
  intro s late hd
  calc exec .flush s = .next (flushDone late s) := congrArg Host.Outcome.next (flushState_of_done hd)
    _ = _ := by simp only [flushDone, record, atOp_iff]

/-! A window that is too long. -/

/-- `WLEN` over 32 on the inputs is refused, whatever the operation (R37, D7). -/
theorem withWindow_tooLong {wlen : BitVec 6} (h : 32 < wlen.toNat) (w : Window) (s : State) (f : RawChunk → State) :
    withWindow (.pins wlen w) s f = .refused (.windowTooLong wlen.toNat) :=
  if_neg (Nat.not_le.2 h)

/-- Settles O56: LOCATE and FRAME read their window first. -/
theorem tooLongWindowRefused : Obligations.TooLongWindowRefused :=
  fun _ w s h => ⟨withWindow_tooLong h w s fun c => (stLocate c s).conclude,
    withWindow_tooLong h w s fun c => (stFrame c s).conclude⟩

/-! What a transaction appends to the trace, and where it leads. -/

theorem takeFatal_phase_of_running {s : State} (h : s.phase.running = true) : (takeFatal s).phase = .stoppedErr := by
  simp [takeFatal, h]

theorem readDone_trace (k : Fin 33) (s : State) : (readDone k s).trace = s.trace ++ [.srcRead 32 3 (.bytes k)] := by
  simp [readDone]

theorem readFailed_phase_of_running {s : State} (h : s.phase.running = true) : (readFailed s).phase = .stoppedErr :=
  takeFatal_phase_of_running h

theorem readFailed_trace_of_running {s : State} (h : s.phase.running = true) :
    (readFailed s).trace = s.trace ++ [.srcRead 32 3 .failure, .ended .stoppedErr] := by
  simp [readFailed, takeFatal, h]

theorem flushFailed_phase_of_running {s : State} (h : s.phase.running = true) : (flushFailed s).phase = .stoppedErr :=
  takeFatal_phase_of_running h

theorem flushFailed_trace_of_running {s : State} (h : s.phase.running = true) :
    (flushFailed s).trace = s.trace ++ [.srcFlush .failure, .ended .stoppedErr] := by
  simp [flushFailed, takeFatal, h]

theorem flushDone_trace (late : Nat) (s : State) : (flushDone late s).trace = s.trace ++ [.srcFlush (.done late)] := rfl

end Sys2Proof.Machine
end

section
/-! PROOFS, the memory (20_memory). The transactions of one pass, by what FRAME returns on the bytes that were read
(R115). -/

namespace Sys2Proof.Machine

/-! The inputs to come are no part of a pass. -/

theorem flushState_inputs (s : State) : (flushState s).inputs = s.inputs := by
  rcases flushState_cases s with ⟨-, e⟩ | ⟨late, -, e⟩ <;> rw [e]
  · simp [flushFailed]
  · rfl

theorem iterOn_inputs (c : RawChunk) (s : State) : (iterOn c s).inputs = s.inputs := by
  have hq := stFrame_quiet c s
  unfold iterOn
  cases hf : stFrame c s with
  | ok a t =>
    rw [hf] at hq
    have hi : t.inputs = s.inputs := hq.inputs
    simp [flushState_inputs, hi]
  | fail k i t =>
    rw [hf] at hq
    have hi : t.inputs = s.inputs := hq.inputs
    simp [hi]

theorem iterState_inputs (s : State) : (iterState s).inputs = s.inputs := by
  cases hs : s.stopreq with
  | true => simp [iterState_of_stop hs]
  | false =>
    cases hr : nextReadAnswer s with
    | failure => simp [iterState_of_failure hs hr, readFailed]
    | bytes k => simp [iterState_of_bytes hs hr, iterOn_inputs, readDone]

/-! The rest of a pass after its READ. -/

/-- FRAME fails on the bytes: nothing but the failure and its DIAG is left of the pass. -/
theorem iterOn_of_frame_fail {c : RawChunk} {k : Status} {i : Info} {s : State} (hf : frame c = .fail k i)
    (hp : s.phase = .locate) (hq : s.seq = .op) :
    ∃ p, p.running = true ∧ iterOn c s = passFailed p k i s := by
  have hres := stFrame_result c s
  have hplace := stFrame_place c s hp hq
  rw [hf] at hres
  obtain ⟨u, hu, -⟩ := hres
  rw [hu] at hplace
  obtain ⟨hphase | hphase, -⟩ := hplace
  · exact ⟨.locate, rfl, iterOn_of_fail rfl (by simp) ⟨u, hu, hphase⟩⟩
  · exact ⟨.chksum, rfl, iterOn_of_fail rfl (by simp) ⟨u, hu, hphase⟩⟩

/-- What FRAME has found where it succeeds (R111). -/
theorem frame_ok {c : RawChunk} {o : Fin 30} {m : Measurement} (h : frame c = .ok o m) :
    ∃ p, locate c = .found o p ∧ checksumOk p = true ∧ m = recordOf p := by
  unfold frame at h
  cases hl : locate c with
  | found o' p =>
    cases hc : checksumOk p <;> simp [hl, hc] at h
    obtain ⟨rfl, rfl⟩ := h
    exact ⟨p, rfl, hc, rfl⟩
  | _ => simp [hl] at h

/-- FRAME succeeds on the bytes: EMIT and DIAG(OK) are sent, and the FLUSH follows. -/
theorem iterOn_of_frame_ok {c : RawChunk} {o : Fin 30} {m : Measurement} {s : State} (hf : frame c = .ok o m)
    (hp : s.phase = .locate) (hq : s.seq = .op) :
    ∃ p, m = recordOf p ∧ iterOn c s = flushState (passReported o p s) := by
  obtain ⟨p, hl, hc, rfl⟩ := frame_ok hf
  refine ⟨p, rfl, ?_⟩
  simp [iterOn, stFrame, stLocate, hl, OpResult.andThen, stChksum, hc, advance, State.atOp, hp, hq, stDecode,
    endDecodeAttempt, succeed, emitState, diagState, afterReport, record, passReported]

/-- Settles O45: the stop, the failed READ, and after a READ the failed FRAME or the FLUSH; in each what the pass leaves
is written out. -/
theorem iterIssuesTransactions : Obligations.IterIssuesTransactions := by
  intro s
  have hon := iterState_onward s
  refine ⟨iterState s, rfl, hon.stopreq, hon.stream, iterState_inputs s, fun hs => ?_, fun hs hr => ?_,
    fun hs k hr => ?_⟩
  · simp [iterState_of_stop hs, boundary_stop hs]
  · simp [iterState_of_failure hs hr, readFailed_go hs]
  rw [iterState_of_bytes hs hr]
  have hphase := readDone_boundary_phase hs k
  have hseq := readDone_boundary_seq hs k
  refine ⟨fun K i hf => ?_, fun o m hf => ?_⟩
  · obtain ⟨p, hrun, e⟩ := iterOn_of_frame_fail hf hphase hseq
    rw [e]
    simp [passFailed, readDone_go hs, hrun]
  · obtain ⟨p, rfl, e⟩ := iterOn_of_frame_ok hf hphase hseq
    have hanswer := nextFlushAnswer_passReported hs k o p
    refine ⟨fun late hd => ?_, fun hd => ?_⟩
    · rw [e, flushState_of_done (hanswer.trans hd)]
      simp [flushDone, passReported, readDone_go hs, State.atOp]
    · rw [e, flushState_of_failure (hanswer.trans hd)]
      simp [flushFailed, takeFatal, passReported, readDone_go hs, Phase.running]

end Sys2Proof.Machine
end

section
/-! PROOFS, the memory (20_memory). Each transaction in its own phase (R36, R42, R113, R114, R120): what a move of the
core sends, place by place. -/

namespace Sys2Proof.Machine

/-- The place at which a move from `s` to `t` may send a transaction, and what it may carry. -/
def SentInPlace (s t : State) : Xact → Prop
  | .srcRead n w _ => s.phase = .read ∧ n = 32 ∧ w = 3
  | .srcFlush _ => s.phase = .flush
  | .sinkEmit m => s.phase = .emit ∧ s.status = some .ok ∧ s.meas = MeasRegs.ofRecord m
  | .diag k _ => s.seq = .report ∧ s.status = some k
  | .ended .stoppedOk => s.stopreq = true ∧ t.phase = .stoppedOk
  | .ended .stoppedErr => t.phase = .stoppedErr

/-- A move appends transactions to the trace, each of them in its place. -/
def SendsInPlace (s t : State) : Prop :=
  ∃ xs, t.trace = s.trace ++ xs ∧ ∀ x ∈ xs, SentInPlace s t x

theorem sendsInPlace_of_silent {s t : State} (h : t.trace = s.trace) : SendsInPlace s t :=
  ⟨[], by simp [h], by simp⟩

theorem readState_sendsInPlace {s : State} (hp : s.phase = .read) : SendsInPlace s (readState s) := by
  have hr : s.phase.running = true := by rw [hp]; rfl
  rcases readState_cases s with ⟨-, e⟩ | ⟨k, -, e⟩ <;> rw [e]
  · exact ⟨_, readFailed_trace_of_running hr, by simp [SentInPlace, hp, readFailed_phase_of_running hr]⟩
  · exact ⟨_, readDone_trace k s, by simp [SentInPlace, hp]⟩

theorem flushState_sendsInPlace {s : State} (hp : s.phase = .flush) : SendsInPlace s (flushState s) := by
  have hr : s.phase.running = true := by rw [hp]; rfl
  rcases flushState_cases s with ⟨-, e⟩ | ⟨late, -, e⟩ <;> rw [e]
  · exact ⟨_, flushFailed_trace_of_running hr, by simp [SentInPlace, hp, flushFailed_phase_of_running hr]⟩
  · exact ⟨_, flushDone_trace late s, by simp [SentInPlace, hp]⟩

theorem emitState_sendsInPlace {s : State} {m : Measurement} (hp : s.phase = .emit) (hm : s.record? = some m) :
    SendsInPlace s (emitState m s) := by
  obtain ⟨hok, hmeas⟩ := stateRecord?_iff.1 hm
  exact ⟨_, emitState_trace s m, by simp [SentInPlace, hp, hok, hmeas]⟩

theorem diagState_sendsInPlace {s : State} {k : Status} (hq : s.seq = .report) (hk : s.status = some k) :
    SendsInPlace s (diagState k s) :=
  ⟨_, diagState_trace s k, by simp [SentInPlace, hq, hk]⟩

theorem iterationBoundary_sendsInPlace (s : State) : SendsInPlace s (iterationBoundary s) := by
  cases hs : s.stopreq with
  | false => exact sendsInPlace_of_silent (by simp [boundary_go hs])
  | true => exact ⟨[.ended .stoppedOk], by simp [boundary_stop hs], by simp [SentInPlace, boundary_stop hs, hs]⟩

/-- With the port empty the core fetches no direct request. -/
theorem fetch_not_direct {s : State} (h : s.port = []) (i : Instr) : fetch s ≠ .direct i := by
  unfold fetch
  rw [h]
  split
  · simp
  cases s.seq with
  | op => cases s.phase <;> simp [fetchRequest, fetchStage]
  | _ => simp

/-- Every move of the core without a direct request sends each transaction in its place. -/
theorem coreStep_sendsInPlace {s t : State} (hport : s.port = []) (h : coreStep s = .next t) : SendsInPlace s t := by
  rcases coreStep_cases h with ⟨i, hf, hx⟩ | ⟨i, hf, -⟩ | ⟨-, rfl⟩ | ⟨-, rfl⟩
  · rcases fetch_stage hf with ⟨hq, rfl⟩ | ⟨-, ⟨hp, rfl⟩ | ⟨-, rfl⟩ | ⟨-, rfl⟩ | ⟨-, rfl⟩ | ⟨hp, rfl⟩ | ⟨hp, rfl⟩⟩
    · obtain ⟨k, hk, rfl⟩ := execDiag_next hx
      exact diagState_sendsInPlace hq hk
    · cases hx
      exact readState_sendsInPlace hp
    · exact sendsInPlace_of_silent (exec_datapath_quiet hx (by simp)).trace
    · exact sendsInPlace_of_silent (exec_datapath_quiet hx (by simp)).trace
    · exact sendsInPlace_of_silent (exec_datapath_quiet hx (by simp)).trace
    · obtain ⟨m, hm, rfl⟩ := execEmit_next hx
      exact emitState_sendsInPlace hp hm
    · cases hx
      exact flushState_sendsInPlace hp
  · exact absurd hf (fetch_not_direct hport i)
  · exact iterationBoundary_sendsInPlace s
  · exact sendsInPlace_of_silent rfl

/-- A step sends what the core's move sends; an input that lands sends nothing. -/
theorem step_sendsInPlace {s t : State} (hport : s.port = []) (h : step s = .next t) : SendsInPlace s t := by
  rcases step_cases h with ⟨-, hc⟩ | ⟨is, -, hc⟩ | ⟨i, is, -, -, rfl⟩
  · exact coreStep_sendsInPlace hport hc
  · obtain ⟨xs, hxs, hall⟩ := coreStep_sendsInPlace (s := { s with inputs := is }) hport hc
    exact ⟨xs, hxs, hall⟩
  · exact sendsInPlace_of_silent (applyInput_outside i { s with inputs := is }).2.2

/-- Settles O54: of the invariant only the empty port is needed. -/
theorem transactionsOnlyInTheirPhase : Obligations.TransactionsOnlyInTheirPhase :=
  fun _ _ hinv h => step_sendsInPlace hinv.port_empty h

end Sys2Proof.Machine
end

section
/-! PROOFS, the encoding (30_encoding). The decoder by the formats of a request, and what each selector names:
decoding and encoding undo one another (R50, R56, R61). -/

namespace Sys2Proof

/-! The decoder, one equation per format whose bytes hold an operand. -/

theorem packetOf?_toList_append (c : Packet) (bs : List Byte) : packetOf? (c.toList ++ bs) = some c := by
  simp [packetOf?, Vector.toArray_toList]

theorem windowOf?_toList_append (w : Window) (bs : List Byte) : windowOf? (w.toList ++ bs) = some w := by
  simp [windowOf?, Vector.toArray_toList]

theorem decode_packet (c : Packet) : decode c.toList = .ok (.decode16 c) := by
  have hlen : c.toList.length = 16 := by simp
  have hc : packetOf? c.toList = some c := by simpa using packetOf?_toList_append c []
  unfold decode
  split
  case h_3 => simp [hc]
  all_goals
    rename_i heq
    simp [heq] at hlen

theorem decode_packet_selector (c : Packet) (sel : Byte) : decode (c.toList ++ [sel]) = decodeP16 sel c := by
  have hlen : (c.toList ++ [sel]).length = 17 := by simp
  unfold decode
  split
  case h_3 => simp [packetOf?_toList_append]
  all_goals
    rename_i heq
    simp [heq] at hlen

theorem decode_window (w : Window) (wlen sel : Byte) :
    decode (w.toList ++ [wlen, sel]) = decodeW32 wlen sel w := by
  have hlen : (w.toList ++ [wlen, sel]).length = 34 := by simp
  unfold decode
  split
  case h_3 => simp [windowOf?_toList_append]
  all_goals
    rename_i heq
    simp [heq] at hlen

/-! Which bytes are a request: the five formats, and no others. -/

theorem packetOf?_some {bs : List Byte} {c : Packet} (h : packetOf? bs = some c) : bs.take 16 = c.toList := by
  unfold packetOf? at h
  split at h
  · cases h; simp
  · cases h

theorem windowOf?_some {bs : List Byte} {w : Window} (h : windowOf? bs = some w) : bs.take 32 = w.toList := by
  unfold windowOf? at h
  split at h
  · cases h; simp
  · cases h

/-- Everything that decodes to an operation: a selector, H3, P16, P16 with a selector, or the window form. -/
theorem decode_ok_cases {bs : List Byte} {i : Instr} (h : decode bs = .ok i) :
    (∃ sel, bs = [sel] ∧ registerRow sel = .ok i) ∨
    (∃ a b c, bs = [a, b, c] ∧ decodeH3 a b c = .ok i) ∨
    (∃ c : Packet, bs = c.toList ∧ i = .decode16 c) ∨
    (∃ (c : Packet) (sel : Byte), bs = c.toList ++ [sel] ∧ decodeP16 sel c = .ok i) ∨
    (∃ (w : Window) (wlen sel : Byte), bs = w.toList ++ [wlen, sel] ∧ decodeW32 wlen sel w = .ok i) := by
  unfold decode at h
  split at h
  · exact .inl ⟨_, rfl, h⟩
  · exact .inr (.inl ⟨_, _, _, rfl, h⟩)
  split at h
  · rename_i hlen
    split at h
    · rename_i c hc
      cases h
      exact .inr (.inr (.inl ⟨c, by rw [← packetOf?_some hc, List.take_of_length_le hlen.le], rfl⟩))
    · cases h
  split at h
  · rename_i hlen
    split at h
    · rename_i c sel hc hsel
      refine .inr (.inr (.inr (.inl ⟨c, sel, ?_, h⟩)))
      obtain ⟨hlt, rfl⟩ := List.getElem?_eq_some_iff.1 hsel
      rw [← packetOf?_some hc, List.take_append_getElem hlt, List.take_of_length_le hlen.le]
    · cases h
  split at h
  · rename_i hlen
    split at h
    · rename_i w wlen sel hw hwlen hsel
      refine .inr (.inr (.inr (.inr ⟨w, wlen, sel, ?_, h⟩)))
      obtain ⟨hlt, rfl⟩ := List.getElem?_eq_some_iff.1 hwlen
      obtain ⟨hlt', rfl⟩ := List.getElem?_eq_some_iff.1 hsel
      rw [← windowOf?_some hw, List.append_cons, List.take_append_getElem hlt, List.take_append_getElem hlt',
        List.take_of_length_le hlen.le]
    · cases h
  · cases h

/-! What a selector names: the operation whose encoding has that selector. -/

theorem encode_of_packetRow {sel : Byte} {src : PktSrc} {i : Instr} (h : packetRow sel src = .ok i) :
    encode i = encodePkt sel src ∧ i.wf = src.wf := by
  unfold packetRow at h
  split at h <;> cases h
  all_goals
    rename_i hsel
    obtain ⟨-, rfl⟩ := BitVec.toNat_eq_nat.1 hsel
    exact ⟨rfl, rfl⟩

theorem encode_of_registerRow {sel : Byte} {i : Instr} (h : registerRow sel = .ok i) :
    encode i = [sel] ∧ i.wf = true := by
  unfold registerRow at h
  split at h
  case h_7 => exact encode_of_packetRow h
  all_goals
    rename_i hsel
    cases h
    obtain ⟨-, rfl⟩ := BitVec.toNat_eq_nat.1 hsel
    exact ⟨rfl, rfl⟩

theorem encode_of_windowRow {sel : Byte} {wlen : BitVec 6} {w : Window} {i : Instr}
    (h : windowRow sel (.pins wlen w) = .ok i) : encode i = encodePins sel wlen w ∧ i.wf = (WinSrc.pins wlen w).wf := by
  unfold windowRow at h
  split at h <;> cases h
  all_goals
    rename_i hsel
    obtain ⟨-, rfl⟩ := BitVec.toNat_eq_nat.1 hsel
    exact ⟨rfl, rfl⟩

/-! From an operation to its bytes and back. -/

/-- A stage's encoding decodes to what its selector names, where the selector alone names it on the registers. -/
theorem decode_encodePkt {sel : Byte} {src : PktSrc} (hreg : registerRow sel = packetRow sel .cand)
    (hwf : src.wf = true) : decode (encodePkt sel src) = packetRow sel src := by
  cases src with
  | cand => exact hreg
  | word c => exact (decode_packet_selector c sel).trans (if_pos hwf)

/-- The encoding of a window's direct form decodes to what its selector names. -/
theorem decode_encodePins (sel : Byte) {wlen : BitVec 6} {w : Window} (hwf : (WinSrc.pins wlen w).wf = true) :
    decode (encodePins sel wlen w) = windowRow sel (.pins wlen w) := by
  have hle : (wlen.zeroExtend 8).toNat ≤ Config.windowLength :=
    (BitVec.toNat_setWidth_of_le (by decide)).trans_le (of_decide_eq_true hwf)
  have hback : (wlen.zeroExtend 8).truncate 6 = wlen := by simp
  rw [encodePins, decode_window, decodeW32, if_pos hle, hback]

/-- Settles O11: one case per operation, by the equation of its format. -/
theorem decodeOfEncode : Obligations.DecodeOfEncode := by
  intro i hwf
  cases i with
  | iter => rfl
  | read => rfl
  | locate src =>
    cases src with
    | regs => rfl
    | pins wlen w => exact decode_encodePins _ hwf
  | frame src =>
    cases src with
    | regs => rfl
    | pins wlen w => exact decode_encodePins _ hwf
  | chksum src => exact decode_encodePkt rfl hwf
  | decode16 b => exact decode_packet b
  | extId src => exact decode_encodePkt rfl hwf
  | extTime src => exact decode_encodePkt rfl hwf
  | extDist src => exact decode_encodePkt rfl hwf
  | extStatus src => exact decode_encodePkt rfl hwf
  | extStrength src => exact decode_encodePkt rfl hwf
  | extAcc src => exact decode_encodePkt rfl hwf
  | decode src => exact decode_encodePkt rfl hwf
  | emit => rfl
  | diag => rfl
  | flush => rfl

/-! From bytes to their operation and back. -/

theorem encode_of_decodeH3 {a b c : Byte} {i : Instr} (h : decodeH3 a b c = .ok i) :
    encode i = [a, b, c] ∧ i.wf = true := by
  unfold decodeH3 at h
  split at h
  · rename_i hheader
    obtain ⟨rfl, rfl, rfl⟩ := hheader
    cases h
    exact ⟨rfl, rfl⟩
  · cases h

theorem encode_of_decodeP16 {sel : Byte} {c : Packet} {i : Instr} (h : decodeP16 sel c = .ok i) :
    encode i = c.toList ++ [sel] ∧ i.wf = true := by
  unfold decodeP16 at h
  split at h
  · rename_i hheader
    obtain ⟨henc, hwf⟩ := encode_of_packetRow h
    exact ⟨henc, hwf.trans hheader⟩
  · cases h

/-- A `WLEN` the decoder accepts fits the six bits that the operation keeps of it (D7). -/
theorem zeroExtend_truncate_wlen {wlen : Byte} (h : wlen.toNat ≤ Config.windowLength) :
    (wlen.truncate 6).zeroExtend 8 = wlen := by
  have : wlen.toNat ≤ 32 := h
  apply BitVec.eq_of_toNat_eq
  rw [BitVec.zeroExtend, BitVec.toNat_setWidth_of_le (by decide), BitVec.truncate, BitVec.toNat_setWidth,
    Nat.mod_eq_of_lt (by omega)]

theorem encode_of_decodeW32 {wlen sel : Byte} {w : Window} {i : Instr} (h : decodeW32 wlen sel w = .ok i) :
    encode i = w.toList ++ [wlen, sel] ∧ i.wf = true := by
  unfold decodeW32 at h
  split at h
  · rename_i hle
    have hfit := zeroExtend_truncate_wlen hle
    obtain ⟨henc, hwf⟩ := encode_of_windowRow h
    have hwlen : (wlen.truncate 6).toNat ≤ Config.windowLength :=
      (wlen.toNat_setWidth 6).trans_le ((Nat.mod_le _ _).trans hle)
    exact ⟨by rw [henc, encodePins, hfit], hwf.trans (decide_eq_true hwlen)⟩
  · cases h

/-- Settles O12: one case per format of a request. -/
theorem encodeOfDecode : Obligations.EncodeOfDecode := by
  intro bs i h
  rcases decode_ok_cases h with
    ⟨sel, rfl, hi⟩ | ⟨a, b, c, rfl, hi⟩ | ⟨c, rfl, rfl⟩ | ⟨c, sel, rfl, hi⟩ | ⟨w, wlen, sel, rfl, hi⟩
  · exact encode_of_registerRow hi
  · exact encode_of_decodeH3 hi
  · exact ⟨rfl, rfl⟩
  · exact encode_of_decodeP16 hi
  · exact encode_of_decodeW32 hi

/-- Settles O10: H3 and the lone selector by computation, the packet words by the equations of P16, since they are PKT of
the record (S1). -/
theorem specWordsDecode : Obligations.SpecWordsDecode := by
  refine ⟨rfl, rfl, ?_, ?_, rfl⟩
  · exact decode_packet (Machine.pkt ⟨1, 1000, 100, 1, 50, 5⟩)
  · exact decode_packet_selector (Machine.pkt ⟨1, 1000, 100, 1, 50, 5⟩) 7#8

end Sys2Proof
end

section
/-! PROOFS, the encoding (30_encoding). The words of a packet and of a window (R8): a field is a slice of the packet word
and of the shifted window word (R54). Then what a valid packet is, what the header adds to its checksum, and that the header
does not overlap itself (R57, R63, R64). -/

namespace Sys2Proof.Machine

/-! Little-endian words and their slices. -/

theorem le_drop (bs : List Byte) (a : Nat) : le (bs.drop a) = le bs / 256 ^ a := by
  induction bs generalizing a with
  | nil => simp [le]
  | cons b bs ih =>
    have hb := b.isLt
    cases a with
    | zero => simp
    | succ a =>
      have hd : (b.toNat + 256 * le bs) / 256 = le bs := by omega
      rw [List.drop_succ_cons, ih, le, Nat.pow_succ', ← Nat.div_div_eq_div_mul, hd]

theorem le_take (bs : List Byte) (n : Nat) : le (bs.take n) = le bs % 256 ^ n := by
  induction bs generalizing n with
  | nil => simp [le]
  | cons b bs ih =>
    have hb := b.isLt
    cases n with
    | zero => simp [le, Nat.mod_one]
    | succ n =>
      have hm : (b.toNat + 256 * le bs) % 256 = b.toNat := by omega
      have hd : (b.toNat + 256 * le bs) / 256 = le bs := by omega
      rw [List.take_succ_cons, le, ih, le, Nat.pow_succ', Nat.mod_mul, hm, hd]

/-- Bytes cut out of a list, as a word, are the slice of the list's word (R8). -/
theorem ofNat_le_drop_take {N : Nat} (bs : List Byte) (hN : N = 8 * bs.length) (a n : Nat) :
    BitVec.ofNat (8 * n) (le ((bs.drop a).take n)) = (BitVec.ofNat N (le bs)).extractLsb' (8 * a) (8 * n) := by
  have hlt : le bs < 2 ^ N := by
    rw [hN, Nat.pow_mul]
    exact le_lt bs
  apply BitVec.eq_of_toNat_eq
  rw [BitVec.extractLsb'_toNat, BitVec.toNat_ofNat, BitVec.toNat_ofNat, Nat.mod_eq_of_lt hlt, le_take, le_drop,
    Nat.shiftRight_eq_div_pow, Nat.pow_mul, Nat.pow_mul]
  exact Nat.mod_mod _ _

/-- A field is a slice of the packet word (R54). -/
theorem ofNat_fieldNat (p : Packet) (f : Field) :
    BitVec.ofNat (8 * Config.fieldWidth f) (fieldNat p f) =
      (packetWord p).extractLsb' (8 * (Config.fieldOffset f + Config.headerLength)) (8 * Config.fieldWidth f) :=
  ofNat_le_drop_take p.toList (by simp) _ _

/-- The record is six slices of the packet word (R54). -/
theorem recordOf_eq_slices (p : Packet) :
    recordOf p = ⟨(packetWord p).extractLsb' 24 8, (packetWord p).extractLsb' 32 32, (packetWord p).extractLsb' 64 24,
      (packetWord p).extractLsb' 88 8, (packetWord p).extractLsb' 96 16, (packetWord p).extractLsb' 112 8⟩ :=
  (Measurement.mk.injEq ..).mpr ⟨ofNat_fieldNat p .id, ofNat_fieldNat p .systemTimeMs, ofNat_fieldNat p .distanceMm,
    ofNat_fieldNat p .signalStatus, ofNat_fieldNat p .signalStrength, ofNat_fieldNat p .signalAccuracy⟩

/-- The barrel shifter: a candidate's packet word is the shifted window word, cut to 128 bits (R78). -/
theorem packetWord_slice (w : Window) (off : Nat) (h : off + 16 ≤ 32) :
    packetWord (slice w off h) = (windowWord w >>> (8 * off)).setWidth 128 := by
  rw [packetWord, slice_toList, BitVec.setWidth_ushiftRight_eq_extractLsb]
  exact ofNat_le_drop_take w.toList (by simp) off 16

/-- A slice of a candidate's packet word is cut from the window word at the packet's place plus its own (R54). -/
theorem packetWord_slice_extract (w : Window) (off : Nat) (h : off + 16 ≤ 32) {k n : Nat} (hkn : 8 * k + n ≤ 128) :
    (packetWord (slice w off h)).extractLsb' (8 * k) n = (windowWord w >>> (8 * (off + k))).setWidth n := by
  rw [packetWord_slice, BitVec.extractLsb'_setWidth_of_le hkn, Nat.mul_add, BitVec.shiftRight_add,
    BitVec.setWidth_ushiftRight_eq_extractLsb]

/-- A field of several bytes keeps all their bits: its width is theirs (R53). -/
theorem ofNat_fieldNat_toNat (p : Packet) (f : Field) :
    (BitVec.ofNat (8 * Config.fieldWidth f) (fieldNat p f)).toNat = le (fieldBytes p f) := by
  have hlen : (fieldBytes p f).length = Config.fieldWidth f := by cases f <;> rfl
  rw [BitVec.toNat_ofNat, fieldNat_eq_le_fieldBytes, Nat.pow_mul, ← hlen]
  exact Nat.mod_eq_of_lt (le_lt _)

/-- The six fields in the literals of R54. -/
theorem recordOf_literals (p : Packet) :
    (recordOf p).id = p[3] ∧
    (recordOf p).systemTimeMs.toNat = p[4].toNat + 256 * p[5].toNat + 65536 * p[6].toNat + 16777216 * p[7].toNat ∧
    (recordOf p).distanceMm.toNat = p[8].toNat + 256 * p[9].toNat + 65536 * p[10].toNat ∧
    (recordOf p).signalStatus = p[11] ∧
    (recordOf p).signalStrength.toNat = p[12].toNat + 256 * p[13].toNat ∧
    (recordOf p).signalAccuracy = p[14] := by
  have htime := ofNat_fieldNat_toNat p .systemTimeMs
  have hdist := ofNat_fieldNat_toNat p .distanceMm
  have hstrength := ofNat_fieldNat_toNat p .signalStrength
  simp only [fieldBytes, le] at htime hdist hstrength
  refine ⟨?_, htime.trans (by omega), hdist.trans (by omega), ?_, hstrength.trans (by omega), ?_⟩ <;>
    simp [recordOf, fieldId, fieldStatus, fieldAcc, fieldNat_eq_le_fieldBytes, fieldBytes, ofNat_le_singleton]

/-- The record of a candidate is six slices of the shifted window word (R54, R78). -/
theorem recordOf_slice (w : Window) (off : Nat) (h : off + 16 ≤ 32) :
    recordOf (slice w off h) =
      ⟨(windowWord w >>> (8 * (off + 3))).setWidth 8, (windowWord w >>> (8 * (off + 4))).setWidth 32,
        (windowWord w >>> (8 * (off + 8))).setWidth 24, (windowWord w >>> (8 * (off + 11))).setWidth 8,
        (windowWord w >>> (8 * (off + 12))).setWidth 16, (windowWord w >>> (8 * (off + 14))).setWidth 8⟩ := by
  have hcut {k n : Nat} (hkn : 8 * k + n ≤ 128) := packetWord_slice_extract w off h hkn
  rw [recordOf_eq_slices, ← hcut (by decide), ← hcut (by decide), ← hcut (by decide), ← hcut (by decide),
    ← hcut (by decide), ← hcut (by decide)]

/-- Settles O58: the literals by the fields' bytes, the slices by the words. -/
theorem recordFieldsAreLiteral : Obligations.RecordFieldsAreLiteral :=
  ⟨recordOf_literals, recordOf_eq_slices, recordOf_slice⟩

/-! The checksum and the header. -/

/-- A valid packet in literals (R57). -/
theorem validPacket_iff (p : Packet) :
    validPacket p = true ↔
      p[0] = 0x57#8 ∧ p[1] = 0x00#8 ∧ p[2] = 0xFF#8 ∧
      ((p.toList.take 15).map BitVec.toNat).sum % 256 = p[15].toNat := by
  rw [validPacket, Bool.and_eq_true, headerMatches_iff, checksumOk_iff, and_assoc, and_assoc]

/-- DECODE16 makes both tests of a valid packet and then returns its record (R57, R110). -/
theorem decode16_ok_iff {p : Packet} {m : Measurement} :
    decode16 p = .ok m ↔ validPacket p = true ∧ m = recordOf p := by
  unfold decode16 validPacket
  cases headerMatches p with
  | false => simp
  | true => cases checksumOk p <;> simp [eq_comm]

/-- Settles O30: the packet in literals, and what DECODE16 answers. -/
theorem validPacketMeaning : Obligations.ValidPacketMeaning :=
  fun p => ⟨validPacket_iff p, fun ⟨_, hm⟩ => (decode16_ok_iff.1 hm).1, fun hv => ⟨_, decode16_ok_iff.2 ⟨hv, rfl⟩⟩⟩

/-- The bytes that CHKSUM sums: the header, then the twelve field bytes (R52, R85). -/
theorem take_fifteen_of_header {p : Packet} (h : headerMatches p = true) :
    p.toList.take 15 = [0x57#8, 0x00#8, 0xFF#8] ++ (p.toList.drop 3).take 12 := by
  obtain ⟨h0, h1, h2⟩ := (headerMatches_iff p).1 h
  simp [packet_toList p, h0, h1, h2]

/-- Settles O29: the header's three bytes sum to 0x156, which is 0x56 modulo 256. -/
theorem headerContributes56 : Obligations.HeaderContributes56 := by
  intro p h
  have hheader : ([0x57#8, 0x00#8, 0xFF#8].map BitVec.toNat).sum = 0x156 := rfl
  rw [checksum_toNat, take_fifteen_of_header h, List.map_append, List.sum_append, hheader]
  omega

/-- Settles O22: at distance 1 or 2 the later hit's first byte would be the earlier one's second or third. -/
theorem hitsAreThreeApart : Obligations.HitsAreThreeApart := by
  intro w i j hi hj hij
  obtain ⟨-, hi1, hi2⟩ := (hit_iff w i).1 hi
  obtain ⟨hj0, -, -⟩ := (hit_iff w j).1 hj
  have hlt : i.val < j.val := hij
  have hne1 : j.val ≠ i.val + 1 := by
    intro hj1
    rw [hj1, hi1] at hj0
    cases hj0
  have hne2 : j.val ≠ i.val + 2 := by
    intro hj2
    rw [hj2, hi2] at hj0
    cases hj0
  omega

end Sys2Proof.Machine
end

section
/-! PROOFS, the frame locator (40_frame_locator). The parallel search, over any number of its lanes (R71, R73, R76), and the
byte-serial matcher (R77) both find the least hit of a window. Then what LOCATE computes, in terms of hits, and how its
failures are taken (R70, R72, R75, R82). -/

namespace Sys2Proof.Machine

/-! Hits and least hits (R70, R71). -/

theorem HitAt.exists_firstHitAt {bs : List Byte} {i : Nat} (h : HitAt bs i) : ∃ j ≤ i, FirstHitAt bs j := by
  classical
  have hex : ∃ i, HitAt bs i := ⟨i, h⟩
  exact ⟨Nat.find hex, Nat.find_min' hex h, Nat.find_spec hex, fun _ => Nat.find_min hex⟩

@[simp] theorem hitAt_cons_succ (b : Byte) (bs : List Byte) (i : Nat) : HitAt (b :: bs) (i + 1) ↔ HitAt bs i := by
  simp [HitAt]

@[simp] theorem firstHitAt_zero (bs : List Byte) : FirstHitAt bs 0 ↔ HitAt bs 0 := by
  simp [FirstHitAt]

@[simp] theorem firstHitAt_cons_succ (b : Byte) (bs : List Byte) (i : Nat) :
    FirstHitAt (b :: bs) (i + 1) ↔ ¬ HitAt (b :: bs) 0 ∧ FirstHitAt bs i := by
  simp only [FirstHitAt, hitAt_cons_succ, Nat.forall_lt_succ_left]
  tauto

/-! The parallel search (R73, R76). -/

/-- The priority encoder over the first `n` lanes selects the least hit, where that is one of them. -/
theorem find?_lanes_eq_some (w : Window) (n : Nat) (i : Fin 30) :
    ((List.finRange 30).take n).find? (hit w) = some i ↔ FirstHitAt w.toList i.val ∧ i.val < n := by
  have hlt := i.isLt
  rw [List.find?_eq_some_iff_getElem, hit_iff]
  constructor
  · rintro ⟨hi, k, hk, rfl, hmin⟩
    obtain ⟨hn, -⟩ : k < n ∧ k < 30 := by simpa using hk
    refine ⟨⟨hi, fun j hj => ?_⟩, by simpa using hn⟩
    have hnot := hmin j (by simpa using hj)
    rw [Bool.not_eq_true', ← Bool.not_eq_true, hit_iff] at hnot
    simpa using hnot
  · rintro ⟨⟨hi, hmin⟩, hn⟩
    refine ⟨hi, i.val, by simp [hn], by simp, fun j hj => ?_⟩
    rw [Bool.not_eq_true', ← Bool.not_eq_true, hit_iff]
    simpa using hmin j hj

theorem firstHit_eq_some (w : Window) (i : Fin 30) : firstHit w = some i ↔ FirstHitAt w.toList i.val :=
  (find?_lanes_eq_some w 30 i).trans (and_iff_left i.isLt)

theorem firstHit17_eq_some (w : Window) (i : Fin 30) :
    firstHit17 w = some i ↔ FirstHitAt w.toList i.val ∧ i.val ≤ 16 :=
  (find?_lanes_eq_some w 17 i).trans (and_congr_right' Nat.lt_succ_iff)

/-- A hit of a window has a lane of its own (R71). -/
theorem HitAt.lt_lanes {w : Window} {i : Nat} (h : HitAt w.toList i) : i < 30 := by
  have hlt := h.lt
  rw [Vector.length_toList] at hlt
  omega

theorem firstHit_eq_none (w : Window) : firstHit w = none ↔ ∀ i, ¬ HitAt w.toList i := by
  rw [Option.eq_none_iff_forall_ne_some]
  constructor
  · intro hnone i hi
    obtain ⟨j, -, hj⟩ := hi.exists_firstHitAt
    exact hnone ⟨j, hj.1.lt_lanes⟩ ((firstHit_eq_some ..).2 hj)
  · exact fun hno i hi => hno i ((firstHit_eq_some w i).1 hi).1

/-- Settles O19: the search over all thirty lanes. -/
theorem searchFindsLeastHit : Obligations.SearchFindsLeastHit :=
  fun w => ⟨firstHit_eq_some w, firstHit_eq_none w⟩

/-! The byte-serial matcher (R77). -/

/-- The least hit of some bytes whose first one has offset `n`, by trying each offset in turn. -/
def scan (n : Nat) : List Byte → Option Nat
  | [] => none
  | b :: bs => if b = Config.h0 ∧ bs[0]? = some Config.h1 ∧ bs[1]? = some Config.h2 then some n else scan (n + 1) bs

theorem scan_eq_some (n i : Nat) (bs : List Byte) : scan n bs = some i ↔ ∃ k, n + k = i ∧ FirstHitAt bs k := by
  induction bs generalizing n with
  | nil => simp [scan, FirstHitAt, HitAt]
  | cons b bs ih =>
    have hzero : HitAt (b :: bs) 0 ↔ b = Config.h0 ∧ bs[0]? = some Config.h1 ∧ bs[1]? = some Config.h2 := by
      simp [HitAt]
    rw [scan, ← Nat.or_exists_add_one]
    by_cases h : HitAt (b :: bs) 0
    · simp [if_pos (hzero.1 h), h]
    · simp [if_neg (mt hzero.2 h), h, ih, Nat.add_assoc, Nat.add_comm 1]

/-- The header's second byte does not begin another header (R63). -/
theorem h1_ne_h0 : Config.h1 ≠ Config.h0 := by decide

theorem scan_of_h1_mismatch (n : Nat) {b : Byte} (bs : List Byte) (h : b ≠ Config.h1) :
    scan n (Config.h0 :: b :: bs) = scan (n + 1) (b :: bs) := by
  rw [scan, if_neg (by simp [h])]

theorem scan_of_h2_mismatch (n : Nat) {b : Byte} (bs : List Byte) (h : b ≠ Config.h2) :
    scan n (Config.h0 :: Config.h1 :: b :: bs) = scan (n + 2) (b :: bs) := by
  rw [scan, if_neg (by simp [h]), scan, if_neg (by simp [h1_ne_h0])]

/-- In state `m`, with the next byte at offset `n + m`, the matcher still has the first `m` header bytes to go by: it
searches them and the bytes to come, from offset `n` on. On a mismatch nothing of them can begin a header (R63), so it goes
on as in state 0. -/
theorem matcherFrom_eq_scan (bs : List Byte) {m : Nat} (hm : m ≤ 2) (n : Nat) :
    matcherFrom m (n + m) bs = scan n ([Config.h0, Config.h1].take m ++ bs) := by
  induction bs generalizing m n with
  | nil =>
    obtain rfl | rfl | rfl : m = 0 ∨ m = 1 ∨ m = 2 := by omega
    all_goals simp [matcherFrom, scan]
  | cons b bs ih =>
    have zero (n : Nat) : matcherFrom 0 n (b :: bs) = scan n (b :: bs) := by
      by_cases hb : b = Config.h0
      · calc matcherFrom 0 n (b :: bs) = matcherFrom 1 (n + 1) bs := by simp [matcherFrom, matcherStep, hb]
          _ = scan n (b :: bs) := hb ▸ ih (Nat.le_succ 1) n
      · calc matcherFrom 0 n (b :: bs) = matcherFrom 0 (n + 1) bs := by simp [matcherFrom, matcherStep, hb]
          _ = scan (n + 1) bs := ih (Nat.zero_le 2) (n + 1)
          _ = scan n (b :: bs) := by simp [scan, hb]
    obtain rfl | rfl | rfl : m = 0 ∨ m = 1 ∨ m = 2 := by omega
    · exact zero n
    · by_cases hb : b = Config.h1
      · calc matcherFrom 1 (n + 1) (b :: bs) = matcherFrom 2 (n + 2) bs := by simp [matcherFrom, matcherStep, hb]
          _ = scan n (Config.h0 :: b :: bs) := hb ▸ ih le_rfl n
      · calc matcherFrom 1 (n + 1) (b :: bs) = matcherFrom 0 (n + 1) (b :: bs) := by
              simp [matcherFrom, matcherStep, hb]
          _ = scan (n + 1) (b :: bs) := zero (n + 1)
          _ = scan n (Config.h0 :: b :: bs) := (scan_of_h1_mismatch n bs hb).symm
    · by_cases hb : b = Config.h2
      · simp [matcherFrom, matcherStep, scan, hb]
      · calc matcherFrom 2 (n + 2) (b :: bs) = matcherFrom 0 (n + 2) (b :: bs) := by
              simp [matcherFrom, matcherStep, hb]
          _ = scan (n + 2) (b :: bs) := zero (n + 2)
          _ = scan n (Config.h0 :: Config.h1 :: b :: bs) := (scan_of_h2_mismatch n bs hb).symm

/-- The parallel search as a list of bytes sees it: an offset instead of a lane. -/
theorem map_firstHit_eq_some (w : Window) (i : Nat) :
    ((firstHit w).map fun o => o.val) = some i ↔ FirstHitAt w.toList i := by
  rw [Option.map_eq_some_iff]
  constructor
  · rintro ⟨o, ho, rfl⟩
    exact (firstHit_eq_some w o).1 ho
  · exact fun hi => ⟨⟨i, hi.1.lt_lanes⟩, (firstHit_eq_some ..).2 hi, rfl⟩

/-- Settles O20: the matcher, started in state 0, scans the whole window for its least hit. -/
theorem serialMatcherEqualsSearch : Obligations.SerialMatcherEqualsSearch := by
  intro w
  have hscan : serialSearch w = scan 0 w.toList := matcherFrom_eq_scan w.toList (Nat.zero_le 2) 0
  apply Option.ext
  intro i
  rw [hscan, scan_eq_some, map_firstHit_eq_some]
  simp

/-! The slice (R78). -/

/-- Settles O23: byte by byte, and as a word by `packetWord_slice`. -/
theorem sliceIsBarrelShift : Obligations.SliceIsBarrelShift :=
  fun w off h => ⟨fun k hk => by simp [slice], packetWord_slice w off h⟩

/-! What LOCATE computes (R70, R72, R75). -/

theorem locate_of_short {c : RawChunk} (h : c.bytes.length < 32) : locate c = .incomplete c.bytes.length := by
  simp [locate, fullWindow_none.2 h]

theorem locate_of_noHit {c : RawChunk} (hl : c.bytes.length = 32) (h : ∀ i, ¬ HitAt c.bytes i) : locate c = .noHit := by
  obtain ⟨w, hw, hbytes⟩ := fullWindow_of_length hl
  have hf : firstHit w = none := (firstHit_eq_none w).2 (hbytes ▸ h)
  simp [locate, hw, hf]

theorem locate_of_lateHit {c : RawChunk} {i : Fin 30} (hl : c.bytes.length = 32) (h : FirstHitAt c.bytes i.val)
    (h17 : 17 ≤ i.val) : locate c = .lateHit i := by
  obtain ⟨w, hw, hbytes⟩ := fullWindow_of_length hl
  have hf : firstHit w = some i := (firstHit_eq_some w i).2 (hbytes ▸ h)
  have hlate : ¬ i.val + 16 ≤ 32 := by omega
  simp [locate, hw, hf, hlate]

/-- When LOCATE succeeds, and with which candidate (R70, R73). -/
theorem locate_eq_found {c : RawChunk} {o : Fin 30} {p : Packet} :
    locate c = .found o p ↔
      c.bytes.length = 32 ∧ FirstHitAt c.bytes o.val ∧ o.val ≤ 16 ∧ p.toList = (c.bytes.drop o.val).take 16 := by
  constructor
  · intro h
    rcases locate_cases c with ⟨_, e⟩ | ⟨w, _, _, e⟩ | ⟨w, o, _, _, _, e⟩ | ⟨w, o, h16, hw, hf, e⟩ <;>
      rw [e] at h <;> cases h
    have hbytes := fullWindow_some hw
    rw [slice_toList, ← hbytes]
    exact ⟨by simp, (firstHit_eq_some w o).1 hf, by omega, rfl⟩
  · rintro ⟨hl, hfirst, h16, hp⟩
    obtain ⟨w, hw, hbytes⟩ := fullWindow_of_length hl
    have hf : firstHit w = some o := (firstHit_eq_some w o).2 (hbytes ▸ hfirst)
    have hbound : o.val + 16 ≤ 32 := by omega
    have hslice : slice w o.val hbound = p := by
      rw [← Vector.toList_inj, slice_toList, hbytes, hp]
    simp [locate, hw, hf, hbound, hslice]

theorem locate_succeeds_iff (c : RawChunk) :
    (∃ o p, locate c = .found o p) ↔ c.bytes.length = 32 ∧ ∃ i ≤ 16, FirstHitAt c.bytes i := by
  constructor
  · rintro ⟨o, p, h⟩
    obtain ⟨hl, hfirst, h16, -⟩ := locate_eq_found.1 h
    exact ⟨hl, o.val, h16, hfirst⟩
  · rintro ⟨hl, i, h16, hfirst⟩
    obtain ⟨w, -, hbytes⟩ := fullWindow_of_length hl
    refine ⟨⟨i, by omega⟩, slice w i (by omega), locate_eq_found.2 ⟨hl, hfirst, h16, ?_⟩⟩
    rw [slice_toList, hbytes]

/-- Settles O21: the least hit in 0..16 is what both LOCATE and the seventeen lanes look for. -/
theorem seventeenComparatorsSuffice : Obligations.SeventeenComparatorsSuffice := by
  refine ⟨locate_succeeds_iff, fun bs => ⟨fun ⟨i, h16, hi⟩ => ⟨i, h16, hi.1⟩, ?_⟩, fun c w hw => ⟨?_, ?_⟩⟩
  · rintro ⟨i, h16, hi⟩
    obtain ⟨j, hji, hj⟩ := hi.exists_firstHitAt
    exact ⟨j, hji.trans h16, hj⟩
  · intro o p h
    obtain ⟨-, hfirst, h16, -⟩ := locate_eq_found.1 h
    exact (firstHit17_eq_some w o).2 ⟨fullWindow_some hw ▸ hfirst, h16⟩
  · intro hfail
    have hl : c.bytes.length = 32 := by simp [← fullWindow_some hw]
    constructor
    · rw [Option.eq_none_iff_forall_ne_some]
      intro i hi
      obtain ⟨hfirst, h16⟩ := (firstHit17_eq_some w i).1 hi
      obtain ⟨o, p, h⟩ := (locate_succeeds_iff c).2 ⟨hl, i.val, h16, fullWindow_some hw ▸ hfirst⟩
      exact hfail o p h
    · rcases locate_cases c with ⟨hshort, _⟩ | ⟨_, _, _, e⟩ | ⟨_, o, _, _, _, e⟩ | ⟨_, o, _, _, _, e⟩
      · omega
      · exact .inl e
      · exact .inr ⟨o, e⟩
      · exact absurd e (hfail _ _)

/-! A valid packet in a window (R80). -/

/-- A byte of a packet that stands in some bytes at offset `j`. -/
theorem getElem?_of_packet_at {bs : List Byte} {j : Nat} {p : Packet} (h : p.toList = (bs.drop j).take 16) (k : Nat)
    (hk : k < 16) : bs[j + k]? = some p[k] := by
  calc bs[j + k]? = ((bs.drop j).take 16)[k]? := by simp [hk]
    _ = some p[k] := by rw [← h]; simp [hk]

/-- A packet with the header is a hit where it stands (R57, R71). -/
theorem hitAt_of_packet_at {bs : List Byte} {j : Nat} {p : Packet} (h : p.toList = (bs.drop j).take 16)
    (hp : headerMatches p = true) : HitAt bs j := by
  obtain ⟨h0, h1, h2⟩ := (headerMatches_iff p).1 hp
  exact ⟨h0 ▸ getElem?_of_packet_at h 0 (by decide), h1 ▸ getElem?_of_packet_at h 1 (by decide),
    h2 ▸ getElem?_of_packet_at h 2 (by decide)⟩

/-- Settles O42: the packet's header is the least hit, so LOCATE returns the packet, and its checksum passes. -/
theorem resynchronizationFindsPacket : Obligations.ResynchronizationFindsPacket := by
  intro c j p hl h16 hp hvalid hbefore
  obtain ⟨hheader, hsum⟩ := (Bool.and_eq_true ..).mp hvalid
  have hlocate : locate c = .found j p := locate_eq_found.2 ⟨hl, ⟨hitAt_of_packet_at hp hheader, hbefore⟩, h16, hp⟩
  simp [frame, hlocate, hsum]

/-! LOCATE's failures (R82, R140). -/

theorem exec_locate_of_windowAt {src : WinSrc} {s : State} {c : RawChunk} (h : windowAt src s = some c) :
    exec (.locate src) s = .next (stLocate c s).conclude :=
  withWindow_of_windowAt _ h

theorem stLocate_of_short {c : RawChunk} (s : State) (h : c.bytes.length < 32) :
    stLocate c s = .fail .incompletePacket (.wlen c.bytes.length) (locateFailed s) := by
  simp [stLocate, locate_of_short h]

theorem stLocate_of_noHit {c : RawChunk} (s : State) (hl : c.bytes.length = 32) (h : ∀ i, ¬ HitAt c.bytes i) :
    stLocate c s = .fail .headerNotFound .noHit { locateFailed s with found := some false, off := none } := by
  simp [stLocate, locate_of_noHit hl h]

theorem stLocate_of_lateHit {c : RawChunk} {i : Fin 30} (s : State) (hl : c.bytes.length = 32)
    (h : FirstHitAt c.bytes i.val) (h17 : 17 ≤ i.val) :
    stLocate c s = .fail .headerNotFound (.lateHit i) { locateFailed s with found := some true, off := some i } := by
  simp [stLocate, locate_of_lateHit hl h h17]

/-- A LOCATE that fails stays in its place and leaves the window alone. -/
theorem stLocate_fail_place {c : RawChunk} {s u : State} {k : Status} {i : Info} (h : stLocate c s = .fail k i u) :
    u.phase = s.phase ∧ u.seq = s.seq ∧ u.window = s.window := by
  unfold stLocate at h
  split at h <;> cases h <;> exact ⟨rfl, rfl, rfl⟩

/-- How LOCATE's failure is taken, in an iteration or not (R140). -/
theorem stLocate_failureTaken {c : RawChunk} {s u : State} {k : Status} {i : Info} (h : stLocate c s = .fail k i u) :
    FailureTaken k i s (stLocate c s).conclude ∧ (stLocate c s).conclude.phase = s.phase := by
  obtain ⟨hphase, hseq, hwindow⟩ := stLocate_fail_place h
  have hquiet := stLocate_quiet c s
  rw [h] at hquiet ⊢
  exact ⟨failureTaken_of_quiet k i hquiet hphase hseq hwindow, (takeFailure_phase ..).trans hphase⟩

/-- What LOCATE's failure leaves outside an iteration (log 11). -/
theorem stLocate_fail_outside {c : RawChunk} {s u : State} {k : Status} {i : Info} (h : stLocate c s = .fail k i u)
    (hr : s.phase.running = false) :
    (stLocate c s).conclude = { u with status := some k, info := some i, meas := MeasRegs.empty } := by
  obtain ⟨hphase, -, -⟩ := stLocate_fail_place h
  simp [h, OpResult.conclude, takeFailure, hphase, hr]

/-- Settles O17: the three failures, each taken as R140 says. -/
theorem locateFailures : Obligations.LocateFailures := by
  intro src s c hw
  refine ⟨_, exec_locate_of_windowAt hw, fun hshort => ?_, fun hl hno => ?_, fun hl i hfirst h17 => ?_⟩
  · exact stLocate_failureTaken (stLocate_of_short s hshort)
  · have hfail := stLocate_of_noHit s hl hno
    obtain ⟨htaken, hphase⟩ := stLocate_failureTaken hfail
    refine ⟨htaken, hphase, fun hr => ?_⟩
    rw [stLocate_fail_outside hfail hr]
    exact ⟨rfl, rfl, rfl⟩
  · have hfail := stLocate_of_lateHit s hl hfirst h17
    obtain ⟨htaken, hphase⟩ := stLocate_failureTaken hfail
    refine ⟨htaken, hphase, fun hr => ?_⟩
    rw [stLocate_fail_outside hfail hr]
    exact ⟨rfl, rfl, rfl⟩

/-- Settles O18: the same three failures, with the whole state that each leaves. -/
theorem locateDirectUseFails : Obligations.LocateDirectUseFails := by
  intro src s c hw hr
  rw [exec_locate_of_windowAt hw]
  refine ⟨fun hshort => ?_, fun hl hno => ?_, fun hl i hfirst h17 => ?_⟩
  · rw [stLocate_fail_outside (stLocate_of_short s hshort) hr]; rfl
  · rw [stLocate_fail_outside (stLocate_of_noHit s hl hno) hr]; rfl
  · rw [stLocate_fail_outside (stLocate_of_lateHit s hl hfirst h17) hr]; rfl

end Sys2Proof.Machine
end

section
/-! PROOFS, the checksum validator (41_checksum_validator). The checksum is the sum of fifteen bytes in the group of bytes
(R85, R86), so that a change of one byte moves it by the difference of the two bytes (R87); and what CHKSUM leaves where it
passes and where it fails (R85, R140). -/

namespace Sys2Proof.Machine

/-! The checksum as a sum of bytes. -/

/-- Reducing the exact sum modulo 256 is adding in the group of bytes (R86). -/
theorem ofNat_byteSum (bs : List Byte) : BitVec.ofNat 8 (byteSum bs) = bs.sum := by
  induction bs with
  | nil => rfl
  | cons b bs ih => simp [byteSum, BitVec.ofNat_add, ih]

theorem checksum_eq_sum (p : Packet) : checksum p = (p.toList.take 15).sum := by
  rw [← ofNat_byteSum]
  apply BitVec.eq_of_toNat_eq
  simp [checksum]

theorem serialChecksum_eq_sum (p : Packet) : serialChecksum p = (p.toList.take 15).sum :=
  List.sum_eq_foldl.symm

theorem checksumOk_iff_eq (p : Packet) : checksumOk p = true ↔ checksum p = p[15] := beq_iff_eq

theorem checksumOk_of_ne {p : Packet} (h : checksum p ≠ p[15]) : checksumOk p = false :=
  beq_eq_false_iff_ne.2 h

/-- Fifteen bytes sum to at most 15 times 255 (R86). -/
theorem sum_take_fifteen_le (p : Packet) : ((p.toList.take 15).map BitVec.toNat).sum ≤ 3825 := by
  have hbyte : ∀ n ∈ (p.toList.take 15).map BitVec.toNat, n ≤ 255 := by
    intro n hn
    obtain ⟨b, -, rfl⟩ := List.mem_map.1 hn
    have := b.isLt
    omega
  simpa using List.sum_le_card_nsmul _ 255 hbyte

/-- Settles O26: both checksums are the same sum of bytes, and a sum does not depend on the order. -/
theorem serialChecksumAgrees : Obligations.SerialChecksumAgrees := by
  refine ⟨fun p => ?_, fun p q h => ?_, sum_take_fifteen_le⟩
  · rw [serialChecksum_eq_sum, checksum_eq_sum]
  · rw [checksum_eq_sum, checksum_eq_sum, h.sum_eq]

/-! A packet with one byte replaced (R87, R88). -/

/-- A change below byte 15 moves the sum by the difference of the two bytes. -/
theorem checksum_set (p : Packet) {k : Nat} (hk : k < 15) (b : Byte) :
    checksum (p.set k b) = checksum p + (-p[k] + b) := by
  rw [checksum_eq_sum, checksum_eq_sum, Vector.toList_set, List.take_set, List.sum_set']
  simp [hk]

/-- Byte 15 is no part of the sum. -/
theorem checksum_set_last (p : Packet) (b : Byte) : checksum (p.set 15 b) = checksum p := by
  rw [checksum_eq_sum, checksum_eq_sum, Vector.toList_set, List.take_set_of_le (by decide)]

theorem checksum_set_ne {p : Packet} {k : Nat} {b : Byte} (hk : k < 15) (hb : b ≠ p[k]) :
    checksum (p.set k b) ≠ checksum p := by
  intro h
  rw [checksum_set p hk, add_eq_left, neg_add_eq_zero] at h
  exact hb h.symm

/-- With byte 15 replaced, CHKSUM passes exactly where it is the sum of the others (R88). -/
theorem checksumOk_set_last (p : Packet) (b : Byte) : checksumOk (p.set 15 b) = true ↔ checksum p = b := by
  rw [checksumOk_iff_eq, checksum_set_last]
  simp

/-- Any other byte in place of one of the header's three destroys it (R87). -/
theorem headerMatches_set_ne {p : Packet} {k : Nat} {b : Byte} (hp : headerMatches p = true) (hk : k < 3)
    (hb : b ≠ p[k]) : headerMatches (p.set k b) = false := by
  obtain ⟨h0, h1, h2⟩ := (headerMatches_iff p).1 hp
  rw [← Bool.not_eq_true, headerMatches_iff]
  rintro ⟨g0, g1, g2⟩
  have hset : (p.set k b)[k] = b := Vector.getElem_set_self _
  interval_cases k
  · exact hb (hset.symm.trans (g0.trans h0.symm))
  · exact hb (hset.symm.trans (g1.trans h1.symm))
  · exact hb (hset.symm.trans (g2.trans h2.symm))

/-- Settles O27: below byte 15 the sum moves away from the checksum byte, at byte 15 the checksum byte from the sum. -/
theorem singleByteChangeDetected : Obligations.SingleByteChangeDetected := by
  rintro p ⟨k, hk⟩ b hvalid hb
  obtain ⟨hheader, hsum⟩ := (Bool.and_eq_true ..).mp hvalid
  have hbody (h : k ≤ 14) : checksum (p.set k b) ≠ checksum p := checksum_set_ne (by omega) hb
  refine ⟨?_, hbody, ?_, fun h => headerMatches_set_ne hheader (Nat.lt_succ_of_le h) hb⟩
  · rcases Nat.lt_or_eq_of_le (Nat.le_of_lt_succ hk) with hlt | rfl
    · have hlast : (p.set k b)[15] = p[15] := Vector.getElem_set_ne _ _ (by omega)
      refine checksumOk_of_ne ?_
      rw [hlast, ← (checksumOk_iff_eq p).1 hsum]
      exact hbody (by omega)
    · rw [← Bool.not_eq_true, checksumOk_set_last, (checksumOk_iff_eq p).1 hsum]
      exact hb.symm
  · rintro rfl
    exact checksum_set_last p b

/-- Settles O28: the one byte that passes is the sum of the others. -/
theorem oneChecksumBytePasses : Obligations.OneChecksumBytePasses := fun p =>
  ⟨checksum p, (checksumOk_set_last p _).2 rfl, fun b hb => ((checksumOk_set_last p b).1 hb).symm⟩

/-! What CHKSUM leaves (R85). -/

theorem stChksum_of_ok {p : Packet} (h : checksumOk p = true) (off : Option (Fin 30)) (s : State) :
    stChksum p off s = .ok () (advance .chksum .decode { s with sum := some (checksum p), sumok := some true }) := by
  simp [stChksum, h]

theorem stChksum_of_mismatch {p : Packet} (h : checksumOk p = false) (off : Option (Fin 30)) (s : State) :
    stChksum p off s = .fail .checksumMismatch (.sums (checksum p) p[15] off)
      { s with sum := some (checksum p), sumok := some false } := by
  simp [stChksum, h]

/-- A CHKSUM that passes reads no `OFF`. -/
theorem exec_chksum_of_ok {src : PktSrc} {s : State} {p : Packet} (hp : packetAt src s = some p)
    (h : checksumOk p = true) : exec (.chksum src) s = .next (stChksum p none s).conclude := by
  simp [exec, execChksum, readPacket_of_packetAt _ hp, h]

theorem exec_chksum_of_mismatch {src : PktSrc} {s : State} {p : Packet} {off : Option (Fin 30)}
    (hp : packetAt src s = some p) (h : checksumOk p = false) (ho : offAt src s = some off) :
    exec (.chksum src) s = .next (stChksum p off s).conclude := by
  simp [exec, execChksum, readPacket_of_packetAt _ hp, h, readOff_of_offAt _ ho]

/-- Settles O24: the sum that CHKSUM writes is byte 15, and the sequencer's move is that of R116. -/
theorem chksumPasses : Obligations.ChksumPasses := by
  intro src s p hp hsum
  have hok : checksumOk p = true := (checksumOk_iff p).2 hsum
  rw [exec_chksum_of_ok hp hok, stChksum_of_ok hok, OpResult.conclude, advance_eq, (checksumOk_iff_eq p).1 hok]

/-- Settles O25: `SUM` and `SUMOK` are written and the failure is taken as R140 says. -/
theorem chksumMismatchTaken : Obligations.ChksumMismatchTaken := by
  intro src s p hp hsum o ho
  have hbad : checksumOk p = false := by rwa [← Bool.not_eq_true, checksumOk_iff]
  have hquiet := stChksum_quiet p o s
  rw [stChksum_of_mismatch hbad, OpResult.state] at hquiet
  refine ⟨_, checksum p, (exec_chksum_of_mismatch hp hbad ho).trans (by rw [stChksum_of_mismatch hbad]; rfl),
    checksum_toNat p, failureTaken_of_quiet _ _ hquiet rfl rfl rfl, by simp, fun hr => ?_⟩
  simp [takeFailure, hr]

end Sys2Proof.Machine
end

section
/-! PROOFS, the checksum validator (41_checksum_validator). No bypass (R93, R112, R113): what EMIT sends after direct use,
and that `STATUS` becomes OK only where CHKSUM has passed, whatever the step. -/

namespace Sys2Proof.Machine

/-! EMIT after an operation used directly. -/

theorem exec_emit_of_record {s : State} {m : Measurement} (h : s.record? = some m) :
    exec .emit s = .next (emitState m s) := by
  simp [exec, execEmit, h]

/-- After an operation that wrote fields without CHKSUM, EMIT stops (log 26). -/
theorem withPacket_emit_faults {src : PktSrc} {s : State} {p : Packet} {f : Packet → State}
    (hp : packetAt src s = some p) (hf : (f p).meas.validated = false) :
    ∃ t, withPacket src s f = .next t ∧ exec .emit t = .fault (.noValue .meas) :=
  ⟨f p, withPacket_of_packetAt f hp, execEmit_unvalidated hf⟩

/-- A DECODE outside its place reads no `OFF` and leaves what it wrote not validated. -/
theorem exec_decode_direct {src : PktSrc} {s : State} {p : Packet} (hp : packetAt src s = some p)
    (hd : s.atOp .decode = false) :
    exec (.decode src) s = .next { s with meas := MeasRegs.unvalidated (recordOf p) } := by
  simp [exec, execDecode, readPacket_of_packetAt _ hp, hd, stDecode_direct p none hd]

/-- The record of a composed operation that succeeded can be sent, and nothing was sent before it (R113). -/
theorem emit_of_quiet {s t : State} {m : Measurement} (hq : Quiet s t) (hm : t.record? = some m) :
    ∃ u, exec .emit t = .next u ∧ u.trace = s.trace ++ [.sinkEmit m] :=
  ⟨_, exec_emit_of_record hm, by rw [emitState_trace, hq.trace]⟩

/-- A FRAME that is OK leaves its record to be sent (R111). -/
theorem stFrame_of_frame_ok {c : RawChunk} {o : Fin 30} {m : Measurement} (s : State) (h : frame c = .ok o m) :
    ∃ t, stFrame c s = .ok (o, m) t ∧ t.record? = some m := by
  have hres := stFrame_result c s
  rw [h] at hres
  obtain ⟨-, t, ht, -, hstatus, -, hmeas, -⟩ := hres
  exact ⟨t, ht, stateRecord?_iff.2 ⟨hstatus, hmeas⟩⟩

/-- A DECODE16 of a valid packet leaves its record to be sent (R110). -/
theorem stDecode16_of_valid {b : Packet} (s : State) (h : validPacket b = true) :
    ∃ t, stDecode16 b s = .ok (recordOf b) t ∧ t.record? = some (recordOf b) := by
  obtain ⟨hheader, hsum⟩ := (Bool.and_eq_true ..).mp h
  simp only [stDecode16, hheader, if_true, stChksum_of_ok hsum, OpResult.andThen]
  exact ⟨_, rfl, stateRecord?_iff.2 ⟨rfl, by simp [stDecode]⟩⟩

/-- Settles O59: a direct DECODE and an EXT leave `MEAS` not validated; FRAME and DECODE16, where they are OK, leave the
record that EMIT reads. -/
theorem noBypassOfChecksum : Obligations.NoBypassOfChecksum := by
  refine ⟨fun src s p hp hd => ?_, fun src s p i hp hi => ?_, fun src s c o m hw _ hf => ?_, fun b s _ hv => ?_⟩
  · have hat : s.atOp .decode = false := by rwa [← Bool.not_eq_true, atOp_iff]
    exact ⟨_, exec_decode_direct hp hat, execEmit_unvalidated rfl⟩
  · rcases hi with rfl | rfl | rfl | rfl | rfl | rfl <;> exact withPacket_emit_faults hp rfl
  · obtain ⟨t, ht, hm⟩ := stFrame_of_frame_ok s hf
    have hq := stFrame_quiet c s
    rw [ht] at hq
    obtain ⟨u, hu⟩ := emit_of_quiet hq hm
    exact ⟨t, u, (withWindow_of_windowAt _ hw).trans (by rw [ht]; rfl), hu⟩
  · obtain ⟨t, ht, hm⟩ := stDecode16_of_valid s hv
    have hq := stDecode16_quiet b s
    rw [ht] at hq
    obtain ⟨u, hu⟩ := emit_of_quiet hq hm
    exact ⟨t, u, by rw [exec, execDecode16, ht]; rfl, hu⟩

/-! The gate before DECODE, and where `STATUS` becomes OK. -/

/-- What O60 says of one step: `t` meets the gate, and an OK in it is new only where CHKSUM has passed. -/
def OkEarned (s t : State) : Prop :=
  ChecksumGate t ∧ (t.status = some .ok → t.sumok = some true ∨ (s.status = some .ok ∧ t.info = s.info))

theorem okEarned_refl {s : State} (h : ChecksumGate s) : OkEarned s s := ⟨h, fun hs => .inr ⟨hs, rfl⟩⟩

/-- Where CHKSUM has passed, nothing more is to show. -/
theorem okEarned_of_sumok {s t : State} (h : t.sumok = some true) : OkEarned s t := ⟨fun _ _ => h, fun _ => .inl h⟩

/-- Where the outcome is not OK and DECODE is not next, nothing is promised. -/
theorem okEarned_of_not_ok {s t : State} (hs : t.status ≠ some .ok) (hd : t.phase = .decode → t.seq ≠ .op) :
    OkEarned s t :=
  ⟨fun hp hq => absurd hq (hd hp), fun h => absurd h hs⟩

/-- What has no part in the checksum: `SUMOK`, `STATUS` and its info stay, and DECODE is not next where it was not. -/
structure VerdictStands (s t : State) : Prop where
  sumok : t.sumok = s.sumok
  status : t.status = s.status
  info : t.info = s.info
  place : t.phase = .decode → t.seq = .op → s.phase = .decode ∧ s.seq = .op

theorem VerdictStands.trans {s t u : State} (h : VerdictStands s t) (k : VerdictStands t u) : VerdictStands s u where
  sumok := k.sumok.trans h.sumok
  status := k.status.trans h.status
  info := k.info.trans h.info
  place := fun hp hq => (k.place hp hq).elim h.place

theorem OkEarned.stands {s t u : State} (h : OkEarned s t) (k : VerdictStands t u) : OkEarned s u := by
  obtain ⟨hgate, hok⟩ := h
  obtain ⟨hsumok, hstatus, hinfo, hplace⟩ := k
  refine ⟨fun hp hq => ?_, ?_⟩
  · obtain ⟨hp', hq'⟩ := hplace hp hq
    exact hsumok.trans (hgate hp' hq')
  · rwa [hstatus, hsumok, hinfo]

/-- A transition of R116 that does not lead to DECODE. -/
theorem advance_stands {p q : Phase} (hq : q ≠ .decode) (s : State) : VerdictStands s (advance p q s) := by
  refine ⟨by simp, by simp, by simp, ?_⟩
  rw [advance_phase, advance_seq]
  split
  · exact fun h => absurd h hq
  · exact And.intro

theorem readDone_stands (k : Fin 33) (s : State) : VerdictStands s (readDone k s) := by
  refine VerdictStands.trans ?_ (advance_stands (by simp) _)
  exact ⟨rfl, rfl, rfl, And.intro⟩

theorem flushDone_stands (late : Nat) (s : State) : VerdictStands s (flushDone late s) := by
  refine ⟨rfl, rfl, rfl, fun hp hq => ⟨hp, ?_⟩⟩
  have hp' : s.phase = .decode := hp
  simpa [flushDone, State.atOp, hp'] using hq

theorem emitState_stands (m : Measurement) (s : State) : VerdictStands s (emitState m s) := by
  refine ⟨rfl, rfl, rfl, fun hp hq => ⟨hp, ?_⟩⟩
  have hp' : s.phase = .decode := hp
  simpa [State.atOp, hp'] using hq

theorem diagState_stands (k : Status) (s : State) : VerdictStands s (diagState k s) := by
  refine ⟨by simp, by simp, by simp, ?_⟩
  by_cases hq : s.seq = .report
  · by_cases hp : s.phase = .emit <;> simp [diagState, afterReport, hq, hp]
  · have e : diagState k s = record (.diag k s.info) s := if_neg hq
    rw [e]
    exact And.intro

/-- A recoverable failure leads to its DIAG, or PHASE is outside an iteration (R140). -/
theorem takeFailure_okEarned {s u : State} {k : Status} (hk : k ≠ .ok) (i : Info) : OkEarned s (takeFailure k i u) := by
  refine okEarned_of_not_ok (by simpa) fun hp => ?_
  have hr : u.phase.running = true := by rw [← takeFailure_phase u k i, hp]; rfl
  simp [takeFailure, hr]

theorem takeFatal_okEarned (s u : State) : OkEarned s (takeFatal u) := by
  refine okEarned_of_not_ok (by simp) ?_
  cases hr : u.phase.running with
  | true => simp [takeFatal_phase_of_running hr]
  | false =>
    intro hp
    have hd : u.phase = .decode := by simpa [takeFatal, hr] using hp
    simp [hd, Phase.running] at hr

theorem iterationBoundary_okEarned (s u : State) : OkEarned s (iterationBoundary u) := by
  cases hs : u.stopreq with
  | true => exact okEarned_of_not_ok (by simp [boundary_stop hs]) (by simp [boundary_stop hs])
  | false => exact okEarned_of_not_ok (by simp [boundary_go hs]) (by simp [boundary_go hs])

/-! The operations that can fail: with which kinds, and what they leave where they do not. -/

theorem andThen_ok {α β : Type} {r : OpResult α} {f : α → State → OpResult β} {b : β} {u : State}
    (h : r.andThen f = .ok b u) : ∃ a t, r = .ok a t ∧ f a t = .ok b u := by
  cases r with
  | ok a t => exact ⟨a, t, rfl, h⟩
  | fail k i t => cases h

theorem andThen_fail {α β : Type} {r : OpResult α} {f : α → State → OpResult β} {k : Status} {i : Info} {u : State}
    (h : r.andThen f = .fail k i u) : r = .fail k i u ∨ ∃ a t, r = .ok a t ∧ f a t = .fail k i u := by
  cases r with
  | ok a t => exact .inr ⟨a, t, rfl, h⟩
  | fail k' i' t => cases h; exact .inl rfl

theorem stLocate_fail_ne_ok {c : RawChunk} {s u : State} {k : Status} {i : Info} (h : stLocate c s = .fail k i u) :
    k ≠ .ok := by
  unfold stLocate at h
  split at h <;> cases h <;> simp

theorem stChksum_fail_ne_ok {p : Packet} {off : Option (Fin 30)} {s u : State} {k : Status} {i : Info}
    (h : stChksum p off s = .fail k i u) : k ≠ .ok := by
  unfold stChksum at h
  split at h <;> cases h
  simp

theorem stFrame_fail_ne_ok {c : RawChunk} {s u : State} {k : Status} {i : Info} (h : stFrame c s = .fail k i u) :
    k ≠ .ok := by
  rcases andThen_fail h with h | ⟨a, t, -, h⟩
  · exact stLocate_fail_ne_ok h
  rcases andThen_fail h with h | ⟨a, t, -, h⟩
  · exact stChksum_fail_ne_ok h
  · cases h

theorem stDecode16_fail_ne_ok {b : Packet} {s u : State} {k : Status} {i : Info} (h : stDecode16 b s = .fail k i u) :
    k ≠ .ok := by
  unfold stDecode16 at h
  split at h
  · rcases andThen_fail h with h | ⟨a, t, -, h⟩
    · exact stChksum_fail_ne_ok h
    · cases h
  · cases h
    simp

theorem stChksum_ok_sumok {p : Packet} {off : Option (Fin 30)} {s u : State} {a : Unit}
    (h : stChksum p off s = .ok a u) : u.sumok = some true := by
  obtain ⟨-, rfl⟩ := stChksum_ok h
  simp

theorem stFrame_ok_sumok {c : RawChunk} {s u : State} {a : Fin 30 × Measurement} (h : stFrame c s = .ok a u) :
    u.sumok = some true := by
  obtain ⟨a, t, -, h⟩ := andThen_ok h
  obtain ⟨b, t', hc, h⟩ := andThen_ok h
  cases h
  simpa [stDecode] using stChksum_ok_sumok hc

theorem stDecode16_ok_sumok {b : Packet} {s u : State} {m : Measurement} (h : stDecode16 b s = .ok m u) :
    u.sumok = some true := by
  unfold stDecode16 at h
  split at h
  · obtain ⟨a, t, hc, h⟩ := andThen_ok h
    cases h
    simpa [stDecode] using stChksum_ok_sumok hc
  · cases h

theorem conclude_okEarned {α : Type} {s : State} {r : OpResult α} (hok : ∀ a u, r = .ok a u → OkEarned s u)
    (hfail : ∀ k i u, r = .fail k i u → k ≠ .ok) : OkEarned s r.conclude := by
  cases r with
  | ok a u => exact hok a u rfl
  | fail k i u => exact takeFailure_okEarned (hfail k i u rfl) i

/-! The operations, a whole pass among them. -/

theorem stLocate_okEarned {s : State} (h : ChecksumGate s) (c : RawChunk) : OkEarned s (stLocate c s).conclude := by
  refine conclude_okEarned (fun a u hu => ?_) fun k i u hu => stLocate_fail_ne_ok hu
  obtain ⟨w, o, h16, -, -, rfl⟩ := stLocate_ok hu
  refine OkEarned.stands ?_ (advance_stands (by simp) _)
  exact (okEarned_refl h).stands ⟨rfl, rfl, rfl, And.intro⟩

/-- In its place DECODE writes OK behind the gate; elsewhere it writes no `STATUS`. -/
theorem stDecode_okEarned {s : State} (h : ChecksumGate s) (p : Packet) (off : Option (Fin 30)) :
    OkEarned s (stDecode p off s) := by
  cases hd : s.atOp .decode with
  | true =>
    obtain ⟨hp, hq⟩ := (atOp_iff s .decode).1 hd
    rw [stDecode_staged p off hd]
    exact okEarned_of_sumok (h hp hq)
  | false =>
    rw [stDecode_direct p off hd]
    exact (okEarned_refl h).stands ⟨rfl, rfl, rfl, And.intro⟩

theorem flushState_okEarned {s t : State} (h : OkEarned s t) : OkEarned s (flushState t) := by
  rcases flushState_cases t with ⟨-, e⟩ | ⟨late, -, e⟩ <;> rw [e]
  · exact takeFatal_okEarned ..
  · exact h.stands (flushDone_stands late t)

theorem readState_okEarned {s : State} (h : ChecksumGate s) : OkEarned s (readState s) := by
  rcases readState_cases s with ⟨-, e⟩ | ⟨k, -, e⟩ <;> rw [e]
  · exact takeFatal_okEarned ..
  · exact (okEarned_refl h).stands (readDone_stands k s)

theorem iterOn_okEarned (s u : State) (c : RawChunk) : OkEarned s (iterOn c u) := by
  unfold iterOn
  cases hf : stFrame c u with
  | ok a t =>
    have ht : OkEarned s t := okEarned_of_sumok (stFrame_ok_sumok hf)
    exact flushState_okEarned ((ht.stands (emitState_stands a.2 t)).stands (diagState_stands .ok _))
  | fail k i t => exact (takeFailure_okEarned (stFrame_fail_ne_ok hf) i).stands (diagState_stands k _)

theorem iterState_okEarned (s : State) : OkEarned s (iterState s) := by
  cases hs : s.stopreq with
  | true => rw [iterState_of_stop hs]; exact iterationBoundary_okEarned ..
  | false =>
    cases hr : nextReadAnswer s with
    | failure => rw [iterState_of_failure hs hr]; exact takeFatal_okEarned ..
    | bytes k => rw [iterState_of_bytes hs hr]; exact iterOn_okEarned ..

/-- Every operation, in its place or requested directly, keeps the gate and earns its OK. -/
theorem exec_okEarned {i : Instr} {s t : State} (hg : ChecksumGate s) (h : exec i s = .next t) : OkEarned s t := by
  have hmeas (r : MeasRegs) : OkEarned s { s with meas := r } :=
    (okEarned_refl hg).stands ⟨rfl, rfl, rfl, And.intro⟩
  cases i with
  | iter => cases h; exact iterState_okEarned s
  | read => cases h; exact readState_okEarned hg
  | locate src => obtain ⟨c, -, rfl⟩ := withWindow_next h; exact stLocate_okEarned hg c
  | frame src =>
    obtain ⟨c, -, rfl⟩ := withWindow_next h
    exact conclude_okEarned (fun a u hu => okEarned_of_sumok (stFrame_ok_sumok hu)) fun k i u => stFrame_fail_ne_ok
  | chksum src =>
    obtain ⟨p, off, -, rfl, -⟩ := execChksum_next h
    exact conclude_okEarned (fun a u hu => okEarned_of_sumok (stChksum_ok_sumok hu)) fun k i u => stChksum_fail_ne_ok
  | decode16 b =>
    cases h
    exact conclude_okEarned (fun a u hu => okEarned_of_sumok (stDecode16_ok_sumok hu)) fun k i u =>
      stDecode16_fail_ne_ok
  | extId src => obtain ⟨p, -, rfl⟩ := withPacket_next h; exact hmeas _
  | extTime src => obtain ⟨p, -, rfl⟩ := withPacket_next h; exact hmeas _
  | extDist src => obtain ⟨p, -, rfl⟩ := withPacket_next h; exact hmeas _
  | extStatus src => obtain ⟨p, -, rfl⟩ := withPacket_next h; exact hmeas _
  | extStrength src => obtain ⟨p, -, rfl⟩ := withPacket_next h; exact hmeas _
  | extAcc src => obtain ⟨p, -, rfl⟩ := withPacket_next h; exact hmeas _
  | decode src => obtain ⟨p, off, -, rfl, -⟩ := execDecode_next h; exact stDecode_okEarned hg p off
  | emit => obtain ⟨m, -, rfl⟩ := execEmit_next h; exact (okEarned_refl hg).stands (emitState_stands m s)
  | diag => obtain ⟨k, -, rfl⟩ := execDiag_next h; exact (okEarned_refl hg).stands (diagState_stands k s)
  | flush => cases h; exact flushState_okEarned (okEarned_refl hg)

theorem coreStep_okEarned {s t : State} (hg : ChecksumGate s) (h : coreStep s = .next t) : OkEarned s t := by
  rcases coreStep_cases h with ⟨i, -, hx⟩ | ⟨i, -, hx⟩ | ⟨-, rfl⟩ | ⟨-, rfl⟩
  · exact exec_okEarned hg hx
  · exact exec_okEarned (s := { s with port := [] }) hg hx
  · exact iterationBoundary_okEarned ..
  · exact okEarned_refl hg

/-- No input that lands opens the gate or writes OK. -/
theorem applyInput_okEarned {s : State} (i : Input) (hg : ChecksumGate s) : OkEarned s (applyInput i s) := by
  cases i with
  | start =>
    simp only [applyInput, ctlStart]
    split
    · exact (okEarned_refl hg).stands ⟨rfl, rfl, rfl, by simp⟩
    · exact okEarned_refl hg
  | reset => exact okEarned_of_not_ok (by simp [applyInput, ctlReset]) (by simp [applyInput, ctlReset])
  | stop => exact (okEarned_refl hg).stands ⟨rfl, rfl, rfl, And.intro⟩
  | arrive n => exact (okEarned_refl hg).stands ⟨rfl, rfl, rfl, And.intro⟩
  | pass => exact okEarned_refl hg

/-- Settles O60: an input or a move of the core, each keeps the gate and earns its OK. -/
theorem okOnlyAfterChecksum : Obligations.OkOnlyAfterChecksum := by
  refine ⟨(nomatch ·), fun s t hg h => ?_⟩
  rcases step_cases h with ⟨-, hc⟩ | ⟨is, -, hc⟩ | ⟨i, is, -, -, rfl⟩
  · exact coreStep_okEarned hg hc
  · exact coreStep_okEarned (s := { s with inputs := is }) hg hc
  · exact applyInput_okEarned (s := { s with inputs := is }) i hg

end Sys2Proof.Machine
end

section
/-! PROOFS, the field decoder (42_field_decoder). Each extraction writes its field of the packet's record (R96 to R101)
and DECODE all six (R102); and the record that PKT carries is the one that was put into it, so that packets and records
determine each other (R60, R104). -/

namespace Sys2Proof.Machine

/-! What an operation of the decoder leaves, in terms of the packet's record. -/

section
variable {src : PktSrc} {s : State} {p : Packet}

theorem exec_extId (hp : packetAt src s = some p) : exec (.extId src) s =
    .next { s with meas := { s.meas with id := some (recordOf p).id, validated := false } } :=
  withPacket_of_packetAt _ hp

theorem exec_extTime (hp : packetAt src s = some p) : exec (.extTime src) s =
    .next { s with meas := { s.meas with systemTimeMs := some (recordOf p).systemTimeMs, validated := false } } :=
  withPacket_of_packetAt _ hp

theorem exec_extDist (hp : packetAt src s = some p) : exec (.extDist src) s =
    .next { s with meas := { s.meas with distanceMm := some (recordOf p).distanceMm, validated := false } } :=
  withPacket_of_packetAt _ hp

theorem exec_extStatus (hp : packetAt src s = some p) : exec (.extStatus src) s =
    .next { s with meas := { s.meas with signalStatus := some (recordOf p).signalStatus, validated := false } } :=
  withPacket_of_packetAt _ hp

theorem exec_extStrength (hp : packetAt src s = some p) : exec (.extStrength src) s =
    .next { s with meas := { s.meas with signalStrength := some (recordOf p).signalStrength, validated := false } } :=
  withPacket_of_packetAt _ hp

theorem exec_extAcc (hp : packetAt src s = some p) : exec (.extAcc src) s =
    .next { s with meas := { s.meas with signalAccuracy := some (recordOf p).signalAccuracy, validated := false } } :=
  withPacket_of_packetAt _ hp

/-- A DECODE in its place reads the `OFF` of its packet for the `info` of OK (R131). -/
theorem exec_decode_staged {off : Option (Fin 30)} (hp : packetAt src s = some p) (ho : offAt src s = some off)
    (hd : s.atOp .decode = true) :
    exec (.decode src) s = .next { s with
      meas := MeasRegs.ofRecord (recordOf p), phase := .emit, status := some .ok,
      info := some (.record off (recordOf p)), cand := none, off := none } := by
  simp [exec, execDecode, readPacket_of_packetAt _ hp, hd, readOff_of_offAt _ ho, stDecode_staged p off hd]

end

/-- Settles O31: the three fields of one byte, as bytes and as slices of the packet word. -/
theorem extOneByteFields : Obligations.ExtOneByteFields := by
  intro src s p hp
  obtain ⟨hid, -, -, hstatus, -, hacc⟩ := recordOf_literals p
  have hslices := recordOf_eq_slices p
  refine ⟨⟨?_, ?_⟩, ⟨?_, ?_⟩, ⟨?_, ?_⟩⟩
  · rw [exec_extId hp, hid]
  · rw [← hid, hslices]
  · rw [exec_extStatus hp, hstatus]
  · rw [← hstatus, hslices]
  · rw [exec_extAcc hp, hacc]
  · rw [← hacc, hslices]

/-- Settles O32: the three fields of several bytes, by their weights and as slices of the packet word. -/
theorem extMultiByteFields : Obligations.ExtMultiByteFields := by
  intro src s p hp
  obtain ⟨-, htime, hdist, -, hstrength, -⟩ := recordOf_literals p
  have hslices := recordOf_eq_slices p
  exact ⟨⟨_, exec_extTime hp, htime, congrArg Measurement.systemTimeMs hslices⟩,
    ⟨_, exec_extDist hp, hdist, congrArg Measurement.distanceMm hslices⟩,
    ⟨_, exec_extStrength hp, hstrength, congrArg Measurement.signalStrength hslices⟩⟩

/-- Settles O33: the record is the packet's, whether DECODE is in its place or used directly. -/
theorem decodeWritesRecord : Obligations.DecodeWritesRecord := by
  intro src s p hp
  obtain ⟨hid, htime, hdist, hstatus, hstrength, hacc⟩ := recordOf_literals p
  refine ⟨recordOf p, hid, htime, hdist, hstatus, hstrength, hacc, fun hd => ?_, fun hphase hseq o ho => ?_⟩
  · exact exec_decode_direct hp (by rwa [← Bool.not_eq_true, atOp_iff])
  · exact exec_decode_staged hp ho ((atOp_iff s .decode).2 ⟨hphase, hseq⟩)

/-! Packets and records. -/

/-- `n` bytes of a value from byte `a` on, assembled again (R60, R32). -/
theorem le_map_byteOf {w : Nat} (v : BitVec w) (a n : Nat) :
    le ((List.range' a n).map (byteOf v)) = v.toNat / 256 ^ a % 256 ^ n := by
  induction n generalizing a with
  | zero => simp [le, Nat.mod_one]
  | succ n ih =>
    have hbyte : (byteOf v a).toNat = v.toNat / 256 ^ a % 256 := by
      rw [byteOf, BitVec.extractLsb'_toNat, Nat.shiftRight_eq_div_pow, Nat.pow_mul]
    rw [List.range'_succ, List.map_cons, le, ih, hbyte, Nat.pow_succ, ← Nat.div_div_eq_div_mul, Nat.pow_succ',
      Nat.mod_mul]

/-- A field value assembled from all its bytes is itself (R60). -/
theorem ofNat_le_byteOf {n : Nat} (v : BitVec (8 * n)) :
    BitVec.ofNat (8 * n) (le ((List.range' 0 n).map (byteOf v))) = v := by
  have hlt : v.toNat < 256 ^ n := Nat.pow_mul 2 8 n ▸ v.isLt
  rw [le_map_byteOf, Nat.pow_zero, Nat.div_one, Nat.mod_eq_of_lt hlt, BitVec.ofNat_toNat, BitVec.setWidth_eq]

/-- The fields of PKT are the record it was made from (R104). -/
theorem recordOf_pkt (m : Measurement) : recordOf (pkt m) = m :=
  (Measurement.mk.injEq ..).mpr ⟨ofNat_le_singleton m.id, ofNat_le_byteOf (n := 4) m.systemTimeMs,
    ofNat_le_byteOf (n := 3) m.distanceMm, ofNat_le_singleton m.signalStatus,
    ofNat_le_byteOf (n := 2) m.signalStrength, ofNat_le_singleton m.signalAccuracy⟩

/-- PKT begins with the header and ends with the checksum of its first fifteen bytes (R60). -/
theorem validPacket_pkt (m : Measurement) : validPacket (pkt m) = true := by
  have hheader : headerMatches (pkt m) = true := (headerMatches_iff _).2 ⟨rfl, rfl, rfl⟩
  have hsum : checksumOk (pkt m) = true := (checksumOk_iff_eq _).2 rfl
  rw [validPacket, hheader, hsum, Bool.and_self]

/-- Settles O34: PKT and the record of a packet are inverse to each other on the valid packets. -/
theorem packetsAndRecordsOneToOne : Obligations.PacketsAndRecordsOneToOne :=
  ⟨fun m => ⟨validPacket_pkt m, recordOf_pkt m⟩, fun _ => pkt_recordOf⟩

end Sys2Proof.Machine
end

section
/-! PROOFS, the pipeline sequencer (43_pipeline_sequencer). The invariant at reset and from step to step (R112, R160), and
what EMIT and DIAG leave, written out (R113, R114). -/

namespace Sys2Proof.Machine

/-- Settles O50: the step that the invariant gives a next state is the step taken. -/
theorem stepKeepsSeqInv : Obligations.StepKeepsSeqInv := by
  intro s t h ht
  obtain ⟨u, hu, hinv⟩ := step_seqInv h
  cases hu.symm.trans ht
  exact hinv

/-- Settles O49: IDLE is a place at which nothing but the ground is promised. -/
theorem seqInvAtReset : Obligations.SeqInvAtReset := by
  have hg : Grounded State.reset := ⟨rfl, reset_stream_wf, by simp [State.emitted, State.reset]⟩
  exact hg.seqInv_of_free (by simp [State.reset]) (by simp [State.reset])

/-- Settles O43: EMIT is `emitState` of the record that can be read. -/
theorem emitHandsRecordToSink : Obligations.EmitHandsRecordToSink := by
  intro s m hs hm
  rw [exec_emit_of_record (stateRecord?_iff.2 ⟨hs, hm⟩)]
  simp only [emitState, record, atOp_iff]

theorem exec_diag_of_status {s : State} {k : Status} (h : s.status = some k) :
    exec .diag s = .next (diagState k s) := by
  simp [exec, execDiag, h]

/-- After its DIAG a stage goes on to FLUSH from EMIT, to the boundary from anywhere else (R116). -/
theorem afterReport_eq (s : State) :
    afterReport s = { s with
      phase := if s.seq = .report ∧ s.phase = .emit then .flush else s.phase,
      seq := if s.seq = .report then (if s.phase = .emit then .op else .boundary) else s.seq } := by
  by_cases hq : s.seq = .report
  · by_cases hp : s.phase = .emit <;> simp [afterReport, hq, hp]
  · simp [afterReport, hq]

/-- Settles O44: DIAG is `diagState`, which goes on as `afterReport` says. -/
theorem diagReportsOutcome : Obligations.DiagReportsOutcome := by
  intro s k hk
  rw [exec_diag_of_status hk, diagState, afterReport_eq]
  rfl

end Sys2Proof.Machine
end

section
/-! PROOFS, the pipeline sequencer (43_pipeline_sequencer). LOCATE where it finds a candidate (R70), DECODE16 (R110) and
FRAME (R111): what each leaves, by the tests that its bytes pass. -/

namespace Sys2Proof.Machine

/-! LOCATE. -/

theorem stLocate_of_found {c : RawChunk} {o : Fin 30} {p : Packet} (h : locate c = .found o p) (s : State) :
    stLocate c s =
      .ok (o, p) (advance .locate .chksum { s with found := some true, off := some o, cand := some p }) := by
  simp [stLocate, h]

/-- Without a candidate LOCATE fails. -/
theorem stLocate_of_not_found {c : RawChunk} (h : ∀ o p, locate c ≠ .found o p) (s : State) :
    ∃ k i u, stLocate c s = .fail k i u := by
  unfold stLocate
  cases e : locate c with
  | incomplete n => exact ⟨_, _, _, rfl⟩
  | noHit => exact ⟨_, _, _, rfl⟩
  | lateHit o => exact ⟨_, _, _, rfl⟩
  | found o p => exact absurd e (h o p)

/-- The bytes of a window have a packet's worth from every offset up to 16 on. -/
theorem exists_packet_at {c : RawChunk} {i : Nat} (hl : c.bytes.length = 32) (h16 : i ≤ 16) :
    ∃ p : Packet, p.toList = (c.bytes.drop i).take 16 := by
  obtain ⟨w, -, hbytes⟩ := fullWindow_of_length hl
  exact ⟨slice w i (by omega), by rw [slice_toList, hbytes]⟩

/-- Settles O16: the candidate is the sixteen bytes from the least hit on. -/
theorem locateFindsFirstHit : Obligations.LocateFindsFirstHit := by
  refine ⟨fun s wlen w h => ⟨_, if_pos h, rfl⟩, fun s => rfl, fun src s c i hw hl hfirst h16 => ?_⟩
  obtain ⟨p, hp⟩ := exists_packet_at hl h16
  refine ⟨p, getElem?_of_packet_at hp, ?_⟩
  rw [exec_locate_of_windowAt hw, stLocate_of_found (locate_eq_found.2 ⟨hl, hfirst, h16, hp⟩), OpResult.conclude,
    advance_eq]

/-! DECODE16. -/

theorem stDecode16_of_wrongHeader {b : Packet} (h : headerMatches b = false) (s : State) :
    stDecode16 b s = .fail .headerNotFound .wrongHeader s := by
  simp [stDecode16, h]

theorem stDecode16_of_mismatch {b : Packet} (hh : headerMatches b = true) (hc : checksumOk b = false) (s : State) :
    stDecode16 b s = .fail .checksumMismatch (.sums (checksum b) b[15] none)
      { s with sum := some (checksum b), sumok := some false } := by
  simp [stDecode16, hh, stChksum_of_mismatch hc, OpResult.andThen]

/-- DECODE16 of a valid packet: CHKSUM, DECODE and the outcome, one after another. -/
theorem stDecode16_ok_eq {b : Packet} (h : validPacket b = true) (s : State) :
    stDecode16 b s = .ok (recordOf b) (succeed none (recordOf b) (stDecode b none
      (advance .chksum .decode { s with sum := some b[15], sumok := some true }))) := by
  obtain ⟨hh, hc⟩ := (Bool.and_eq_true ..).mp h
  simp [stDecode16, hh, stChksum_of_ok hc, (checksumOk_iff_eq b).1 hc, OpResult.andThen]

/-- Outside an iteration DECODE after a CHKSUM that passed, with the outcome, writes the record and moves no PHASE
(log 11). -/
theorem succeed_stDecode_outside {s : State} (hr : s.phase.running = false) (p : Packet) (off : Option (Fin 30)) :
    succeed off (recordOf p) (stDecode p off (advance .chksum .decode s)) =
      { s with meas := MeasRegs.ofRecord (recordOf p), status := some .ok, info := some (.record off (recordOf p)) } := by
  rw [advance_of_not (atOp_not_running hr rfl), stDecode_direct p off (atOp_not_running hr rfl)]
  rfl

theorem exec_decode16 (b : Packet) (s : State) : exec (.decode16 b) s = .next (stDecode16 b s).conclude := rfl

/-- Settles O35: PKT of a record is a valid packet with that record. -/
theorem decode16RoundTrip : Obligations.Decode16RoundTrip := by
  intro m s hr
  rw [exec_decode16, stDecode16_ok_eq (validPacket_pkt m), OpResult.conclude, succeed_stDecode_outside (by exact hr),
    recordOf_pkt]

/-- A failure in an iteration (R140). -/
theorem takeFailure_of_running {s : State} (h : s.phase.running = true) (k : Status) (i : Info) :
    takeFailure k i s = { clearRegs s with status := some k, info := some i, seq := .report } :=
  if_pos h

/-- A failure in direct use (log 11). -/
theorem takeFailure_outside {s : State} (h : s.phase.running = false) (k : Status) (i : Info) :
    takeFailure k i s = { s with status := some k, info := some i, meas := MeasRegs.empty } :=
  if_neg (Bool.not_eq_true _ ▸ h)

/-- How the failure of an operation that ran on from `s` is taken, wherever in the sequence it stopped (R140). -/
theorem Quiet.failureTaken {s u : State} (h : Quiet s u) (hw : u.window = s.window) (k : Status) (i : Info) :
    FailureTaken k i s (takeFailure k i u) := by
  have hq := h.trans (takeFailure_quiet k i u)
  refine ⟨by simp, by simp, by simp, hq.trace, hq.stopreq, hq.sameEnvironment, fun hr => ?_, fun hr => ?_⟩
  · have hu : u.phase.running = true := h.running.trans hr
    simp [takeFailure_of_running hu, hu]
  · obtain ⟨hphase, hseq⟩ := h.outside hr
    rw [takeFailure_outside (h.running.trans hr)]
    exact ⟨hw, hphase, hseq⟩

/-- Settles O36: the header test, then the checksum, then the record. -/
theorem decode16SucceedsIffValid : Obligations.Decode16SucceedsIffValid := by
  intro b s
  have hq := conclude_quiet (stDecode16_quiet b s)
  refine ⟨_, exec_decode16 b s, hq.sameEnvironment, hq.trace, hq.stopreq, ?_⟩
  have hqs := stDecode16_quiet b s
  cases hh : headerMatches b with
  | false =>
    rw [stDecode16_of_wrongHeader hh] at hqs ⊢
    refine ⟨by simp [OpResult.conclude, validPacket, hh], by simp [validPacket, hh], fun _ => ?_, by simp⟩
    exact hqs.failureTaken rfl ..
  | true =>
    cases hc : checksumOk b with
    | false =>
      rw [stDecode16_of_mismatch hh hc] at hqs ⊢
      refine ⟨by simp [OpResult.conclude, validPacket, hc], by simp [validPacket, hc], by simp, fun _ _ => ?_⟩
      exact hqs.failureTaken rfl ..
    | true =>
      have hv : validPacket b = true := by simp [validPacket, hh, hc]
      rw [stDecode16_ok_eq hv]
      simp [OpResult.conclude, hv, stDecode]

/-- Settles O37: the two failures, with the whole state that each leaves. -/
theorem decode16DirectUseFails : Obligations.Decode16DirectUseFails := by
  intro b s hr
  refine ⟨fun hh => ?_, fun hh hc => ?_⟩
  · rw [exec_decode16, stDecode16_of_wrongHeader hh, OpResult.conclude, takeFailure_outside hr]
  · rw [exec_decode16, stDecode16_of_mismatch hh hc, OpResult.conclude, takeFailure_outside (by exact hr)]

/-! FRAME as a function of the window (R111, R119). -/

theorem frame_of_mismatch {c : RawChunk} {o : Fin 30} {p : Packet} (h : locate c = .found o p)
    (hc : checksumOk p = false) : frame c = .fail .checksumMismatch (.sums (checksum p) p[15] (some o)) := by
  simp [frame, h, hc]

theorem frame_of_ok {c : RawChunk} {o : Fin 30} {p : Packet} (h : locate c = .found o p) (hc : checksumOk p = true) :
    frame c = .ok o (recordOf p) := by
  simp [frame, h, hc]

/-- A packet that stands where there is a hit has the header (R71). -/
theorem headerMatches_of_hitAt {bs : List Byte} {j : Nat} {p : Packet} (h : p.toList = (bs.drop j).take 16)
    (hj : HitAt bs j) : headerMatches p = true := by
  obtain ⟨h0, h1, h2⟩ := hj
  rw [headerMatches_iff, ← Option.some_inj, ← Option.some_inj (a := p[1]), ← Option.some_inj (a := p[2]),
    ← getElem?_of_packet_at h 0 (by decide), ← getElem?_of_packet_at h 1 (by decide),
    ← getElem?_of_packet_at h 2 (by decide)]
  exact ⟨h0, h1, h2⟩

/-- Settles O38: the candidate at the least hit has the header, so it is a valid packet where its checksum passes. -/
theorem frameSucceedsIff : Obligations.FrameSucceedsIff := by
  intro c o m
  constructor
  · intro h
    obtain ⟨p, hl, hc, rfl⟩ := frame_ok h
    obtain ⟨hlen, hfirst, h16, hp⟩ := locate_eq_found.1 hl
    have hv : validPacket p = true := by simp [validPacket, headerMatches_of_hitAt hp hfirst.1, hc]
    exact ⟨hlen, hfirst, h16, p, hp, hv, decode16_ok_iff.2 ⟨hv, rfl⟩⟩
  · rintro ⟨hlen, hfirst, h16, p, hp, hv, hm⟩
    obtain ⟨-, rfl⟩ := decode16_ok_iff.1 hm
    exact frame_of_ok (locate_eq_found.2 ⟨hlen, hfirst, h16, hp⟩) ((Bool.and_eq_true ..).mp hv).2

/-- Why FRAME fails, where it does: the four failures in the order of the pipeline (R111, R139). -/
theorem frame_fail_cases {c : RawChunk} {k : Status} {i : Info} (h : frame c = .fail k i) :
    (k = .incompletePacket ∧ c.bytes.length < 32) ∨
    (k = .headerNotFound ∧ i = .noHit ∧ ∀ j, ¬ HitAt c.bytes j) ∨
    (∃ o : Fin 30, k = .headerNotFound ∧ i = .lateHit o ∧ FirstHitAt c.bytes o.val ∧ 17 ≤ o.val) ∨
    k = .checksumMismatch := by
  rcases locate_cases c with ⟨hlt, e⟩ | ⟨w, hw, hf, e⟩ | ⟨w, o, hw, hf, h17, e⟩ | ⟨w, o, h16, -, -, e⟩ <;>
    simp only [frame, e] at h
  · cases h
    exact .inl ⟨rfl, hlt⟩
  · cases h
    exact .inr (.inl ⟨rfl, rfl, fullWindow_some hw ▸ (firstHit_eq_none w).1 hf⟩)
  · cases h
    exact .inr (.inr (.inl ⟨o, rfl, rfl, fullWindow_some hw ▸ (firstHit_eq_some w o).1 hf, h17⟩))
  · split at h <;> cases h
    exact .inr (.inr (.inr rfl))

/-- Settles O39: LOCATE's results give the failures, and a failure's kind and `info` tell which it was. -/
theorem frameFailsInOrder : Obligations.FrameFailsInOrder := by
  refine fun c => ⟨⟨fun hlt => ?_, fun h => ?_⟩, fun hl => ⟨fun hno => ?_, fun h => ?_⟩,
    fun hl i => ⟨fun ⟨hfirst, h17⟩ => ?_, fun h => ?_⟩, fun hl i hfirst h16 p hp hc => ?_⟩
  · simp [frame, locate_of_short hlt]
  · rcases frame_fail_cases h with ⟨-, hlt⟩ | ⟨⟨⟩, -⟩ | ⟨-, ⟨⟩, -⟩ | ⟨⟨⟩⟩
    exact hlt
  · simp [frame, locate_of_noHit hl hno]
  · rcases frame_fail_cases h with ⟨⟨⟩, -⟩ | ⟨-, -, hno⟩ | ⟨-, -, ⟨⟩, -⟩ | ⟨⟨⟩⟩
    exact hno
  · simp [frame, locate_of_lateHit hl hfirst h17]
  · rcases frame_fail_cases h with ⟨⟨⟩, -⟩ | ⟨-, ⟨⟩, -⟩ | ⟨o, -, ⟨⟩, hlate⟩ | ⟨⟨⟩⟩
    exact hlate
  · exact frame_of_mismatch (locate_eq_found.2 ⟨hl, hfirst, h16, hp⟩) hc

/-! The operation FRAME (R111, R120). -/

theorem exec_frame_of_windowAt {src : WinSrc} {s : State} {c : RawChunk} (h : windowAt src s = some c) :
    exec (.frame src) s = .next (stFrame c s).conclude :=
  withWindow_of_windowAt _ h

/-- LOCATE's failure ends FRAME. -/
theorem stFrame_of_locate_fail {c : RawChunk} {s u : State} {k : Status} {i : Info}
    (h : stLocate c s = .fail k i u) : stFrame c s = .fail k i u := by
  simp [stFrame, h, OpResult.andThen]

/-- With a candidate, CHKSUM runs in the state that LOCATE leaves, and DECODE in the state that CHKSUM leaves. -/
theorem stFrame_of_found {c : RawChunk} {o : Fin 30} {p : Packet} (h : locate c = .found o p) (s : State) :
    stFrame c s =
      (stChksum p (some o)
        (advance .locate .chksum { s with found := some true, off := some o, cand := some p })).andThen
      fun _ u => .ok (o, recordOf p) (succeed (some o) (recordOf p) (stDecode p (some o) u)) := by
  simp [stFrame, stLocate_of_found h, OpResult.andThen]

/-- Settles O40: FRAME returns what the function says; a failure at CHKSUM is taken like one at LOCATE. -/
theorem frameRunsDatapath : Obligations.FrameRunsDatapath := by
  intro src s c hw
  have hq := stFrame_quiet c s
  have hqc := conclude_quiet hq
  have hres := stFrame_result c s
  refine ⟨_, exec_frame_of_windowAt hw, hqc.sameEnvironment, hqc.trace, hqc.stopreq, fun o m hf => ?_, fun k i hf => ?_⟩
  · rw [hf] at hres
    obtain ⟨-, u, hu, -, hstatus, hinfo, hmeas, hsumok, hfound, hwindow, hoff⟩ := hres
    rw [hu] at hq ⊢
    exact ⟨hstatus, hinfo, hmeas, hsumok, hfound, hwindow, fun hr => ⟨hoff hr, hq.outside hr⟩⟩
  · rw [hf] at hres
    obtain ⟨u, hu, hwindow⟩ := hres
    rw [hu] at hq ⊢
    exact hq.failureTaken hwindow k i

/-- Settles O41: without a candidate FRAME ends where LOCATE does; with one, the stages leave PHASE alone outside an
iteration. -/
theorem frameDirectUse : Obligations.FrameDirectUse := by
  intro src s c hw
  rw [exec_frame_of_windowAt hw]
  refine ⟨fun hno => ?_, fun hr o p hl => ?_⟩
  · obtain ⟨k, i, u, hu⟩ := stLocate_of_not_found hno s
    rw [exec_locate_of_windowAt hw, hu, stFrame_of_locate_fail hu]
    rfl
  rw [stFrame_of_found hl, advance_of_not (atOp_not_running (by exact hr) rfl)]
  refine ⟨fun hc => ?_, fun hc => ?_⟩
  · rw [stChksum_of_ok hc, OpResult.andThen, OpResult.conclude, succeed_stDecode_outside (by exact hr),
      (checksumOk_iff_eq p).1 hc]
  · rw [stChksum_of_mismatch hc, OpResult.andThen, OpResult.conclude, takeFailure_outside (by exact hr)]

end Sys2Proof.Machine
end

section
/-! PROOFS, the pipeline sequencer (43_pipeline_sequencer). PHASE moves by the table of R116, row by row; so the run comes
nearer to the iteration boundary with every move, and a stop request is honoured there (R123, R137). -/

namespace Sys2Proof.Machine

/-! The core's move, by the place of the sequencer, where no input is due. -/

/-- In its place the operation of the phase is the step. -/
theorem step_of_stage {s : State} {p : Phase} {i : Instr} (hi : s.inputs = []) (hp : s.phase = p) (hq : s.seq = .op)
    (hr : p.running = true) (hf : fetchStage p = .stage i) : step s = exec i s :=
  (step_of_no_input hi).trans (coreStep_of_running hp hq hr hf)

theorem Phase.running_ne_stopped {p : Phase} (h : p.running = true) : p ≠ .stoppedOk ∧ p ≠ .stoppedErr := by
  constructor <;> rintro rfl <;> cases h

theorem step_of_report {s : State} (hi : s.inputs = []) (hq : s.seq = .report) (hok : s.phase ≠ .stoppedOk)
    (herr : s.phase ≠ .stoppedErr) : step s = exec .diag s :=
  (step_of_no_input hi).trans (coreStep_of_report hq hok herr)

theorem step_of_boundary {s : State} (hi : s.inputs = []) (hq : s.seq = .boundary) (hok : s.phase ≠ .stoppedOk)
    (herr : s.phase ≠ .stoppedErr) : step s = .next (iterationBoundary s) :=
  (step_of_no_input hi).trans (coreStep_of_boundary hq hok herr)

/-! The rows of the table that hold for many phases. -/

theorem phaseTable_of_stopped {s : State} (h : s.phase = .stoppedOk ∨ s.phase = .stoppedErr) : PhaseTable s s := by
  rcases h with h | h <;> simp [PhaseTable, h]

theorem phaseTable_boundary {s t : State} (hq : s.seq = .boundary) (hok : s.phase ≠ .stoppedOk)
    (herr : s.phase ≠ .stoppedErr) :
    PhaseTable s t ↔
      (s.stopreq = true → t.phase = .stoppedOk) ∧ (s.stopreq = false → t.phase = .read ∧ t.seq = .op) := by
  unfold PhaseTable
  cases hp : s.phase <;> simp_all

theorem phaseTable_report {s t : State} (hq : s.seq = .report) (hok : s.phase ≠ .stoppedOk)
    (herr : s.phase ≠ .stoppedErr) :
    PhaseTable s t ↔
      (s.phase = .emit → t.phase = .flush ∧ t.seq = .op) ∧
      (s.phase ≠ .emit → t.phase = s.phase ∧ t.seq = .boundary) := by
  unfold PhaseTable
  cases hp : s.phase <;> simp_all

/-! Where each move leads. -/

theorem readState_of_failure {s : State} (h : nextReadAnswer s = .failure) : readState s = readFailed s := by
  simp [readState, h]

theorem iterationBoundary_phaseTable {s : State} (hq : s.seq = .boundary) (hok : s.phase ≠ .stoppedOk)
    (herr : s.phase ≠ .stoppedErr) : PhaseTable s (iterationBoundary s) :=
  (phaseTable_boundary hq hok herr).2 ⟨fun hs => by simp [boundary_stop hs], fun hs => by simp [boundary_go hs]⟩

/-- The DIAG of a record that was sent leads to FLUSH (R116). -/
theorem diagState_from_emit {s : State} (k : Status) (hp : s.phase = .emit) (hq : s.seq = .report) :
    (diagState k s).phase = .flush ∧ (diagState k s).seq = .op := by
  simp [diagState, afterReport_eq, hp, hq]

/-- The DIAG of a failure leads to the boundary (R116). -/
theorem diagState_from_failure {s : State} (k : Status) (hp : s.phase ≠ .emit) (hq : s.seq = .report) :
    (diagState k s).phase = s.phase ∧ (diagState k s).seq = .boundary := by
  simp [diagState, afterReport_eq, hp, hq]

theorem diagState_phaseTable {s : State} (k : Status) (hq : s.seq = .report) (hok : s.phase ≠ .stoppedOk)
    (herr : s.phase ≠ .stoppedErr) : PhaseTable s (diagState k s) :=
  (phaseTable_report hq hok herr).2
    ⟨fun hp => diagState_from_emit k hp hq, fun hp => diagState_from_failure k hp hq⟩

theorem readState_phaseTable {s : State} (hp : s.phase = .read) (hq : s.seq = .op) : PhaseTable s (readState s) := by
  simp only [PhaseTable, hp, hq]
  refine ⟨fun hr => ?_, fun k hr => ?_⟩
  · rw [readState_of_failure hr, readFailed_phase_of_running (by rw [hp]; rfl)]
  · simp [readState_of_bytes hr, readDone, advance_phase, State.atOp, hp, hq]

theorem flushState_phaseTable {s : State} (hp : s.phase = .flush) (hq : s.seq = .op) :
    PhaseTable s (flushState s) := by
  simp only [PhaseTable, hp, hq]
  refine ⟨fun hf => ?_, fun late hf => ?_⟩
  · rw [flushState_of_failure hf, flushFailed_phase_of_running (by rw [hp]; rfl)]
  · simp [flushState_of_done hf, flushDone, State.atOp, hp, hq]

theorem stLocate_phaseTable {s : State} {c : RawChunk} (hp : s.phase = .locate) (hq : s.seq = .op)
    (hw : s.window = some c) : PhaseTable s (stLocate c s).conclude := by
  simp only [PhaseTable, hp, hq, hw, Option.some.injEq, forall_eq']
  refine ⟨fun o p hl => ?_, fun hno => ?_⟩
  · simp [stLocate_of_found hl, OpResult.conclude, advance_phase, State.atOp, hp, hq]
  · obtain ⟨k, i, u, hu⟩ := stLocate_of_not_found hno s
    obtain ⟨hphase, -, -⟩ := stLocate_fail_place hu
    rw [hu, OpResult.conclude, takeFailure_of_running (by rw [hphase, hp]; rfl)]
    exact ⟨hphase.trans hp, rfl⟩

theorem stChksum_phaseTable {s : State} {p : Packet} (off : Option (Fin 30)) (hp : s.phase = .chksum)
    (hq : s.seq = .op) (hc : s.cand = some p) : PhaseTable s (stChksum p off s).conclude := by
  simp only [PhaseTable, hp, hq, hc, Option.some.injEq, forall_eq']
  refine ⟨fun hok => ?_, fun hbad => ?_⟩
  · simp [stChksum_of_ok hok, OpResult.conclude, advance_phase, State.atOp, hp, hq]
  · rw [stChksum_of_mismatch hbad, OpResult.conclude, takeFailure_of_running (by rw [hp]; rfl)]
    exact ⟨hp, rfl⟩

/-- Settles O8: the place decides which row it is, and the invariant gives the registers that the row's operation
reads. -/
theorem phaseFollowsTable : Obligations.PhaseFollowsTable := by
  intro s h hi
  by_cases hstop : s.phase = .stoppedOk ∨ s.phase = .stoppedErr
  · exact ⟨s, (step_of_no_input hi).trans (coreStep_of_wait (fetch_of_stopped hstop)), phaseTable_of_stopped hstop⟩
  obtain ⟨hok, herr⟩ := not_or.1 hstop
  cases hq : s.seq with
  | boundary => exact ⟨_, step_of_boundary hi hq hok herr, iterationBoundary_phaseTable hq hok herr⟩
  | report =>
    obtain ⟨k, hk⟩ := h.report_status hq
    exact ⟨_, (step_of_report hi hq hok herr).trans (exec_diag_of_status hk), diagState_phaseTable k hq hok herr⟩
  | op =>
    cases hp : s.phase with
    | idle =>
      have hwait : fetch s = .wait := by rw [fetch_of_idle hp hq, h.port_empty]; rfl
      exact ⟨s, (step_of_no_input hi).trans (coreStep_of_wait hwait), by simp [PhaseTable, hp, hq]⟩
    | read => exact ⟨_, step_of_stage hi hp hq rfl rfl, readState_phaseTable hp hq⟩
    | locate =>
      obtain ⟨c, hw, -⟩ := h.locate_window hp hq
      exact ⟨_, (step_of_stage hi hp hq rfl rfl).trans (exec_locate_of_windowAt (src := .regs) hw),
        stLocate_phaseTable hp hq hw⟩
    | chksum =>
      obtain ⟨p, o, hc, -, -, -, ho, -⟩ := h.chksum_candidate hp hq
      exact ⟨_, (step_of_stage hi hp hq rfl rfl).trans (execChksum_cand hc ho), stChksum_phaseTable _ hp hq hc⟩
    | decode =>
      obtain ⟨p, hc, -, -, -, -, o, ho⟩ := h.decode_candidate hp hq
      refine ⟨_, (step_of_stage hi hp hq rfl rfl).trans (execDecode_cand hc ho), ?_⟩
      simp [PhaseTable, hp, hq, stDecode_staged p _ ((atOp_iff s .decode).2 ⟨hp, hq⟩)]
    | emit =>
      obtain ⟨m, hm, -⟩ := h.emit_record hp hq
      refine ⟨_, (step_of_stage hi hp hq rfl rfl).trans (exec_emit_of_record hm), ?_⟩
      simp [PhaseTable, hp, hq, State.atOp]
    | flush => exact ⟨_, step_of_stage hi hp hq rfl rfl, flushState_phaseTable hp hq⟩
    | stoppedOk => exact absurd hp hok
    | stoppedErr => exact absurd hp herr

/-! A stop request (R123, R137). -/

/-- How many moves at most lie before the iteration boundary, by the rows of R116. -/
def movesToBoundary : SeqPoint → Phase → Nat
  | .boundary, _ => 0
  | .report, .emit => 2
  | .report, _ => 1
  | .op, .read => 7
  | .op, .locate => 6
  | .op, .chksum => 5
  | .op, .decode => 4
  | .op, .emit => 3
  | .op, .flush => 1
  | .op, _ => 0

/-- `t` is a place in an iteration that is nearer to its boundary than `s`. -/
def NearerBoundary (s t : State) : Prop :=
  t.phase.running = true ∧ movesToBoundary t.seq t.phase < movesToBoundary s.seq s.phase

theorem nearerBoundary_of_row {s t : State} {p p' : Phase} {q q' : SeqPoint} (hp : s.phase = p) (hq : s.seq = q)
    (ht : t.phase = p' ∧ t.seq = q') (hr : p'.running = true) (hlt : movesToBoundary q' p' < movesToBoundary q p) :
    NearerBoundary s t := by
  obtain ⟨hp', hq'⟩ := ht
  rw [NearerBoundary, hp, hq, hp', hq']
  exact ⟨hr, hlt⟩

/-- A move by the table with a stop pending ends the run, or comes nearer to the boundary. -/
theorem PhaseTable.progress {s t : State} (h : SeqInv s) (hr : s.phase.running = true) (hs : s.stopreq = true)
    (ht : PhaseTable s t) : (t.phase = .stoppedOk ∨ t.phase = .stoppedErr) ∨ NearerBoundary s t := by
  obtain ⟨hok, herr⟩ := Phase.running_ne_stopped hr
  cases hq : s.seq with
  | boundary => exact .inl (.inl (((phaseTable_boundary hq hok herr).1 ht).1 hs))
  | report =>
    obtain ⟨hemit, hother⟩ := (phaseTable_report hq hok herr).1 ht
    by_cases hp : s.phase = .emit
    · exact .inr (nearerBoundary_of_row hp hq (hemit hp) rfl (by decide))
    · exact .inr (nearerBoundary_of_row rfl hq (hother hp) hr (by cases s.phase <;> decide))
  | op =>
    cases hp : s.phase <;> simp only [PhaseTable, hp, hq] at ht
    case read =>
      cases ha : nextReadAnswer s with
      | failure => exact .inl (.inr (ht.1 ha))
      | bytes k => exact .inr (nearerBoundary_of_row hp hq (ht.2 k ha) rfl (by decide))
    case locate =>
      obtain ⟨c, hw, -⟩ := h.locate_window hp hq
      obtain ⟨hfound, hfail⟩ := ht c hw
      by_cases hl : ∃ o p, locate c = .found o p
      · obtain ⟨o, p, hl⟩ := hl
        exact .inr (nearerBoundary_of_row hp hq (hfound o p hl) rfl (by decide))
      · exact .inr (nearerBoundary_of_row hp hq (hfail fun o p e => hl ⟨o, p, e⟩) rfl (by decide))
    case chksum =>
      obtain ⟨p, -, hc, -⟩ := h.chksum_candidate hp hq
      obtain ⟨hpass, hfail⟩ := ht p hc
      cases hsum : checksumOk p with
      | true => exact .inr (nearerBoundary_of_row hp hq (hpass hsum) rfl (by decide))
      | false => exact .inr (nearerBoundary_of_row hp hq (hfail hsum) rfl (by decide))
    case decode => exact .inr (nearerBoundary_of_row hp hq ht rfl (by decide))
    case emit => exact .inr (nearerBoundary_of_row hp hq ht rfl (by decide))
    case flush =>
      cases ha : nextFlushAnswer s with
      | failure => exact .inl (.inr (ht.1 ha))
      | done late => exact .inr (nearerBoundary_of_row hp hq (ht.2 late ha) rfl (by decide))
    case idle => simp [hp, Phase.running] at hr
    case stoppedOk => exact absurd hp hok
    case stoppedErr => exact absurd hp herr

theorem readState_inputs (s : State) : (readState s).inputs = s.inputs := by
  rcases readState_cases s with ⟨-, e⟩ | ⟨k, -, e⟩ <;> rw [e]
  · simp [readFailed]
  · simp [readDone]

/-- The inputs to come are no operation's to change. -/
theorem exec_inputs {i : Instr} {s t : State} (h : exec i s = .next t) : t.inputs = s.inputs := by
  by_cases hi : i ≠ .iter ∧ i ≠ .read ∧ i ≠ .emit ∧ i ≠ .diag ∧ i ≠ .flush
  · exact (exec_datapath_quiet h hi).inputs
  cases i with
  | iter => cases h; exact iterState_inputs s
  | read => cases h; exact readState_inputs s
  | flush => cases h; exact flushState_inputs s
  | emit => obtain ⟨m, -, rfl⟩ := execEmit_next h; exact emitState_inputs s m
  | diag => obtain ⟨k, -, rfl⟩ := execDiag_next h; exact diagState_inputs s k
  | _ => simp at hi

theorem coreStep_inputs {s t : State} (h : coreStep s = .next t) : t.inputs = s.inputs := by
  rcases coreStep_cases h with ⟨i, -, hx⟩ | ⟨i, -, hx⟩ | ⟨-, rfl⟩ | ⟨-, rfl⟩
  · exact exec_inputs hx
  · exact exec_inputs (s := { s with port := [] }) hx
  · exact iterationBoundary_inputs s
  · rfl

/-- With a stop pending the run ends with the boundary's move at the latest, by induction on the moves that lie before
it. -/
theorem stops_after_movesToBoundary {s : State} (h : SeqInv s) (hr : s.phase.running = true) (hs : s.stopreq = true)
    (hi : s.inputs = []) :
    ∃ n ≤ movesToBoundary s.seq s.phase + 1, ∃ t, Host.Core.run Sys2Proof.core n s = .next t ∧
      (t.phase = .stoppedOk ∨ t.phase = .stoppedErr) := by
  induction hm : movesToBoundary s.seq s.phase using Nat.strong_induction_on generalizing s with
  | _ m ih =>
    obtain ⟨t, ht, htable⟩ := phaseFollowsTable s h hi
    have hcore : coreStep s = .next t := (step_of_no_input hi).symm.trans ht
    rcases htable.progress h hr hs with hstop | ⟨hrun, hlt⟩
    · exact ⟨1, by omega, t, (run_succ 0 ht).trans (run_zero t), hstop⟩
    · obtain ⟨n, hn, u, hu, hstop⟩ := ih _ (hm ▸ hlt) (stepKeepsSeqInv s t h ht) hrun
        ((coreStep_onward hcore).stopreq.trans hs) ((coreStep_inputs hcore).trans hi) rfl
      exact ⟨n + 1, by omega, u, (run_succ n ht).trans hu, hstop⟩

theorem movesToBoundary_le (q : SeqPoint) (p : Phase) : movesToBoundary q p ≤ 7 := by
  cases q <;> cases p <;> decide

/-- Settles O52: at most seven moves lie before the boundary's own. -/
theorem stopHonouredWithinOneIteration : Obligations.StopHonouredWithinOneIteration := by
  intro s h hr hs hi
  obtain ⟨n, hn, hstop⟩ := stops_after_movesToBoundary h hr hs hi
  have hle := movesToBoundary_le s.seq s.phase
  exact ⟨n, by omega, hstop⟩

end Sys2Proof.Machine
end

section
/-! PROOFS, the pipeline sequencer (43_pipeline_sequencer). The moves of the sequencer from one boundary to the next, put
together, are the one operation ITER (R115, R116). -/

namespace Sys2Proof.Machine

/-! A pass after its FRAME. -/

/-- What a pass does with FRAME's result: the DIAG of a failure, or EMIT, DIAG(OK) and FLUSH (R115). -/
def finishPass (r : OpResult (Fin 30 × Measurement)) : State :=
  match r with
  | .fail k i u => diagState k (takeFailure k i u)
  | .ok (_, m) u => flushState (diagState .ok (emitState m u))

theorem iterOn_eq_finishPass (c : RawChunk) (s : State) : iterOn c s = finishPass (stFrame c s) := rfl

/-- DECODE in its place has already written all that FRAME writes after it. -/
theorem succeed_stDecode_staged {s : State} (p : Packet) (off : Option (Fin 30)) (h : s.atOp .decode = true) :
    succeed off (recordOf p) (stDecode p off s) = stDecode p off s := by
  rw [stDecode_staged p off h]
  rfl

/-! The sequencer's moves, from the last stage back to the first. -/

/-- A failure of an operation in an iteration: its DIAG ends the pass. -/
theorem step_of_failure {α : Type} {u : State} (hi : u.inputs = []) (hr : u.phase.running = true) (k : Status)
    (i : Info) : step (OpResult.fail (α := α) k i u).conclude = .next (finishPass (.fail k i u)) := by
  obtain ⟨hok, herr⟩ := Phase.running_ne_stopped hr
  have hq : (takeFailure k i u).seq = .report := by rw [takeFailure_of_running hr]
  exact (step_of_report (s := takeFailure k i u) (by simpa) hq (by simpa) (by simpa)).trans
    (exec_diag_of_status (takeFailure_status ..))

/-- From EMIT on: EMIT, its DIAG and FLUSH. -/
theorem run_from_emit {s : State} {m : Measurement} (hi : s.inputs = []) (hp : s.phase = .emit) (hq : s.seq = .op)
    (hm : s.record? = some m) :
    Host.Core.run Sys2Proof.core 3 s = .next (flushState (diagState .ok (emitState m s))) := by
  have hstatus : s.status = some .ok := (stateRecord?_iff.1 hm).1
  have hreport : (emitState m s).seq = .report := by simp [State.atOp, hp, hq]
  obtain ⟨hp', hq'⟩ := diagState_from_emit (s := emitState m s) .ok hp hreport
  have hemit : step s = .next (emitState m s) := (step_of_stage hi hp hq rfl rfl).trans (exec_emit_of_record hm)
  have hdiag : step (emitState m s) = .next (diagState .ok (emitState m s)) :=
    (step_of_report (s := emitState m s) hi hreport (by simp [hp]) (by simp [hp])).trans (exec_diag_of_status hstatus)
  have hflush : step (diagState .ok (emitState m s)) = .next (flushState (diagState .ok (emitState m s))) :=
    step_of_stage (by simp [hi]) hp' hq' rfl rfl
  exact (run_succ 2 hemit).trans ((run_succ 1 hdiag).trans (run_succ 0 hflush))

/-- From DECODE on. -/
theorem run_from_decode {s : State} {p : Packet} {o : Fin 30} (hi : s.inputs = []) (hp : s.phase = .decode)
    (hq : s.seq = .op) (hc : s.cand = some p) (ho : s.off = some o) :
    Host.Core.run Sys2Proof.core 4 s =
      .next (finishPass (.ok (o, recordOf p) (succeed (some o) (recordOf p) (stDecode p (some o) s)))) := by
  have hat : s.atOp .decode = true := (atOp_iff s .decode).2 ⟨hp, hq⟩
  have hdecode : step s = .next (stDecode p (some o) s) :=
    (step_of_stage hi hp hq rfl rfl).trans (execDecode_cand hc ho)
  rw [run_succ 3 hdecode, succeed_stDecode_staged p (some o) hat, stDecode_staged p (some o) hat]
  exact run_from_emit hi rfl hq (stateRecord?_iff.2 ⟨rfl, rfl⟩)

/-- From CHKSUM on: a failure ends the pass early. -/
theorem run_from_chksum {s : State} {p : Packet} {o : Fin 30} (hi : s.inputs = []) (hp : s.phase = .chksum)
    (hq : s.seq = .op) (hc : s.cand = some p) (ho : s.off = some o) :
    ∃ n ≤ 5, Host.Core.run Sys2Proof.core n s =
      .next (finishPass ((stChksum p (some o) s).andThen fun _ u =>
        .ok (o, recordOf p) (succeed (some o) (recordOf p) (stDecode p (some o) u)))) := by
  have hchksum : step s = .next (stChksum p (some o) s).conclude :=
    (step_of_stage hi hp hq rfl rfl).trans (execChksum_cand hc ho)
  cases hsum : checksumOk p with
  | false =>
    rw [stChksum_of_mismatch hsum] at hchksum ⊢
    exact ⟨2, by decide, (run_succ 1 hchksum).trans (run_succ 0 (step_of_failure (by exact hi) (by exact hp ▸ rfl) ..))⟩
  | true =>
    rw [stChksum_of_ok hsum] at hchksum ⊢
    refine ⟨5, le_rfl, (run_succ 4 hchksum).trans (run_from_decode ?_ ?_ ?_ ?_ ?_)⟩ <;>
      simp [OpResult.conclude, advance_phase, State.atOp, hi, hp, hq, hc, ho]

/-- From LOCATE on: the stages, one after another, are FRAME and what follows it (R111). -/
theorem run_from_locate {s : State} {c : RawChunk} (hi : s.inputs = []) (hp : s.phase = .locate) (hq : s.seq = .op)
    (hw : s.window = some c) : ∃ n ≤ 6, Host.Core.run Sys2Proof.core n s = .next (iterOn c s) := by
  have hlocate : step s = .next (stLocate c s).conclude :=
    (step_of_stage hi hp hq rfl rfl).trans (exec_locate_of_windowAt (src := .regs) hw)
  rw [iterOn_eq_finishPass]
  by_cases hfound : ∃ o p, locate c = .found o p
  · obtain ⟨o, p, hl⟩ := hfound
    rw [stLocate_of_found hl] at hlocate
    rw [stFrame_of_found hl]
    obtain ⟨n, hn, hrun⟩ := run_from_chksum (p := p) (o := o)
      (s := advance .locate .chksum { s with found := some true, off := some o, cand := some p })
      (by simp [hi]) (by simp [advance_phase, State.atOp, hp, hq]) (by simp [hq]) (by simp) (by simp)
    exact ⟨n + 1, by omega, (run_succ n hlocate).trans hrun⟩
  · obtain ⟨k, i, u, hu⟩ := stLocate_of_not_found (fun o p e => hfound ⟨o, p, e⟩) s
    obtain ⟨hphase, -, -⟩ := stLocate_fail_place hu
    have hquiet := stLocate_quiet c s
    rw [hu] at hquiet hlocate
    have hi' : u.inputs = [] := hquiet.inputs.trans hi
    rw [stFrame_of_locate_fail hu]
    exact ⟨2, by decide, (run_succ 1 hlocate).trans (run_succ 0 (step_of_failure hi' (by rw [hphase, hp]; rfl) k i))⟩

/-- The READ of a pass draws the answer that was next at the boundary. -/
theorem nextReadAnswer_boundary (s : State) : nextReadAnswer (iterationBoundary s) = nextReadAnswer s := by
  simp [nextReadAnswer]

/-- The READ of a pass in its place. -/
theorem step_of_boundary_read {s : State} (hi : s.inputs = []) (hs : s.stopreq = false) :
    step (iterationBoundary s) = .next (readState (iterationBoundary s)) :=
  step_of_stage (s := iterationBoundary s) (p := .read) (i := .read) (by simp [hi]) (by simp [boundary_go hs])
    (by simp) rfl rfl

/-- Settles O46: the boundary's move, READ, and the moves from LOCATE on. -/
theorem iterEqualsPhaseRun : Obligations.IterEqualsPhaseRun := by
  intro s hi hq hok herr
  have hboundary := step_of_boundary hi hq hok herr
  cases hs : s.stopreq with
  | true =>
    exact ⟨1, le_rfl, by decide, (run_succ 0 hboundary).trans (exec_iter_of_iterState (iterState_of_stop hs)).symm⟩
  | false =>
    have hread := step_of_boundary_read hi hs
    cases hr : nextReadAnswer s with
    | failure =>
      rw [readState_of_failure ((nextReadAnswer_boundary s).trans hr)] at hread
      refine ⟨2, by decide, by decide, ?_⟩
      exact ((run_succ 1 hboundary).trans (run_succ 0 hread)).trans
        (exec_iter_of_iterState (iterState_of_failure hs hr)).symm
    | bytes k =>
      rw [readState_of_bytes ((nextReadAnswer_boundary s).trans hr)] at hread
      obtain ⟨n, hn, hrun⟩ := run_from_locate (s := readDone k (iterationBoundary s)) (c := readChunk s k)
        (by simp [readDone_go hs, hi]) (readDone_boundary_phase hs k) (readDone_boundary_seq hs k)
        (by simp [readDone_go hs])
      refine ⟨n + 2, by omega, by omega, ?_⟩
      exact (((run_succ (n + 1) hboundary).trans (run_succ n hread)).trans hrun).trans
        (exec_iter_of_iterState (iterState_of_bytes hs hr)).symm

end Sys2Proof.Machine
end

section
/-! PROOFS, the pipeline sequencer (43_pipeline_sequencer). A run over an environment script leaves what the reference
function RUN says, entry by entry (R117, R124). -/

namespace Sys2Proof.Machine

/-! RUN, one entry at a time. -/

/-- What the iteration of one entry leaves, its stop request aside (R124). -/
def entryRun (e : ScriptEntry) : RunResult :=
  match e.bytes with
  | none => ⟨[], [], some .stoppedErr⟩
  | some c =>
    match frame c with
    | .ok _ m => ⟨[m], [.ok], if e.flushFailure then some .stoppedErr else none⟩
    | .fail k _ => ⟨[], [k], none⟩

/-- RUN takes an entry's records and kinds and, unless the entry ended the run, its stop request or the next entry. -/
theorem runFrom_cons (ms : List Measurement) (ks : List Status) (e : ScriptEntry) (es : List ScriptEntry) :
    runFrom ms ks (e :: es) =
      (entryRun e).ending.elim
        (if e.stopAfter then ⟨ms ++ (entryRun e).emitted, ks ++ (entryRun e).diags, some .stoppedOk⟩
          else runFrom (ms ++ (entryRun e).emitted) (ks ++ (entryRun e).diags) es)
        fun x => ⟨ms ++ (entryRun e).emitted, ks ++ (entryRun e).diags, some x⟩ := by
  rw [runFrom, entryRun]
  cases e.bytes with
  | none => simp
  | some c =>
    cases hf : frame c with
    | fail k i => simp [hf]
    | ok o m => cases hfl : e.flushFailure <;> simp [hf]

/-- What was emitted and reported before a run stands before what the run leaves. -/
theorem runFrom_eq (ms : List Measurement) (ks : List Status) (es : List ScriptEntry) :
    runFrom ms ks es = ⟨ms ++ (run es).emitted, ks ++ (run es).diags, (run es).ending⟩ := by
  induction es generalizing ms ks with
  | nil => simp [run, runFrom]
  | cons e es ih =>
    rw [run, runFrom_cons, runFrom_cons]
    cases (entryRun e).ending with
    | some x => simp
    | none => cases e.stopAfter <;> simp [ih (_ ++ _), ih (entryRun e).emitted]

/-! The machine, one entry at a time. -/

/-- What `r` says was emitted and reported between `s` and `t`, and how the run stands in `t` (R117). -/
structure Leaves (r : RunResult) (s t : State) : Prop where
  emitted : t.emitted = s.emitted ++ r.emitted
  diags : t.diags = s.diags ++ r.diags
  ending : t.ending = r.ending

/-- In READ .. FLUSH a run has not ended. -/
theorem ending_of_running {s : State} (h : s.phase.running = true) : s.ending = none := by
  unfold State.ending
  cases hp : s.phase <;> simp_all [Phase.running]

/-- The iteration of a presented entry leaves what RUN takes from that entry. -/
theorem iter_leaves {e : ScriptEntry} {s t : State} (hs : s.stopreq = false) (hp : Presents s e)
    (hi : exec .iter s = .next t) : Leaves (entryRun e) s t := by
  obtain ⟨t', ht', -, -, -, -, hfail, hbytes⟩ := iterIssuesTransactions s
  cases ht'.symm.trans hi
  obtain ⟨hread, hflush⟩ := hp
  rw [entryRun]
  cases hb : e.bytes with
  | none =>
    simp only [hb] at hread
    obtain ⟨hphase, -, htrace⟩ := hfail hs hread
    constructor <;> simp [State.emitted, State.diags, State.ending, htrace, hphase]
  | some c =>
    simp only [hb] at hread
    obtain ⟨k, hread, rfl⟩ := hread
    obtain ⟨hbad, hgood⟩ := hbytes hs k hread
    cases hf : frame (readChunk s k) with
    | fail K i =>
      obtain ⟨-, -, hrun, -, htrace⟩ := hbad K i hf
      constructor <;> simp [State.emitted, State.diags, htrace, hf, ending_of_running hrun]
    | ok o m =>
      obtain ⟨hdone, hfailed⟩ := hgood o m hf
      have hflag := hflush _ o m hb hf
      cases ha : nextFlushAnswer { s with draws := s.draws + 1 } with
      | done late =>
        obtain ⟨-, -, hphase, -, -, htrace⟩ := hdone late ha
        have hff : e.flushFailure = false := by simpa [ha] using hflag
        constructor <;> simp [State.emitted, State.diags, State.ending, htrace, hphase, hf, hff]
      | failure =>
        obtain ⟨-, hphase, htrace⟩ := hfailed ha
        have hff : e.flushFailure = true := hflag.2 ha
        constructor <;> simp [State.emitted, State.diags, State.ending, htrace, hphase, hf, hff]

/-- A stop request at the boundary ends the run and leaves nothing else (R137). -/
theorem iter_ctlStop_leaves {s t : State} (hi : exec .iter (ctlStop s) = .next t) :
    Leaves ⟨[], [], some .stoppedOk⟩ s t := by
  have hs : (ctlStop s).stopreq = true := rfl
  cases hi.symm.trans (exec_iter_of_iterState ((iterState_of_stop hs).trans (boundary_stop hs)))
  constructor <;> simp [State.emitted, State.diags, State.ending, ctlStop]

theorem exec_iter_stopreq {s t : State} (hi : exec .iter s = .next t) : t.stopreq = s.stopreq :=
  (exec_onward hi).stopreq

/-- What a run over a script leaves, by induction on how it follows the script. -/
theorem followsScript_runFrom {script : List ScriptEntry} {s u : State} (h : FollowsScript script s u)
    (hs : s.stopreq = false) (he : s.ending = none) :
    runFrom s.emitted s.diags script = ⟨u.emitted, u.diags, u.ending⟩ := by
  induction h with
  | done s => rw [runFrom, he]
  | failed e es s t hp hi hend =>
    obtain ⟨hms, hks, hr⟩ := iter_leaves hs hp hi
    simp [runFrom_cons, ← hr, hend, hms, hks]
  | stopped e es s t u hp hi hrun hstop hu =>
    obtain ⟨hms, hks, hr⟩ := iter_leaves hs hp hi
    obtain ⟨hms', hks', hr'⟩ := iter_ctlStop_leaves hu
    simp [runFrom_cons, ← hr, hrun, hstop, hms, hks, hms', hks', hr']
  | next e es s t u hp hi hrun hstop _ ih =>
    obtain ⟨hms, hks, hr⟩ := iter_leaves hs hp hi
    rw [← ih ((exec_iter_stopreq hi).trans hs) hrun, hms, hks]
    simp [runFrom_cons, ← hr, hrun, hstop]

/-- Settles O48: RUN from what was there before is what was there with RUN appended. -/
theorem runMatchesReference : Obligations.RunMatchesReference := by
  intro script s u hs he h
  have hrun := followsScript_runFrom h hs he
  rw [runFrom_eq] at hrun
  injection hrun with hms hks hend
  exact ⟨hms.symm, hks.symm, hend.symm⟩

end Sys2Proof.Machine
end

section
/-! PROOFS, the exceptions (60_exceptions). A stop request is taken at the iteration boundary alone (R137), a failed
transaction ends the run at once (R135), and a run that has ended stands still until reset (R145). -/

namespace Sys2Proof.Machine

/-- Settles O57, by the table of codes. -/
theorem statusCodes : Obligations.StatusCodes :=
  ⟨rfl, rfl, rfl, rfl, rfl, rfl⟩

/-! A failed transaction (R135, R40). -/

theorem exec_read_of_failure {s : State} (h : nextReadAnswer s = .failure) : exec .read s = .next (readFailed s) :=
  congrArg Host.Outcome.next (readState_of_failure h)

theorem exec_flush_of_failure {s : State} (h : nextFlushAnswer s = .failure) :
    exec .flush s = .next (flushFailed s) :=
  congrArg Host.Outcome.next (flushState_of_failure h)

/-- Outside an iteration a failed READ leaves the sequencer alone and sends no END (log 11). -/
theorem readFailed_outside {s : State} (h : s.phase.running = false) :
    (readFailed s).phase = s.phase ∧ (readFailed s).seq = s.seq ∧
      (readFailed s).trace = s.trace ++ [.srcRead 32 3 .failure] := by
  simp [readFailed, takeFatal, h]

/-- Outside an iteration a failed FLUSH leaves the sequencer alone and sends no END (log 11). -/
theorem flushFailed_outside {s : State} (h : s.phase.running = false) :
    (flushFailed s).phase = s.phase ∧ (flushFailed s).seq = s.seq ∧
      (flushFailed s).trace = s.trace ++ [.srcFlush .failure] := by
  simp [flushFailed, takeFatal, h]

/-- Settles O15: the failed READ and the failed FLUSH take the fatal failure, in an iteration and outside one. -/
theorem transportFailureEndsRun : Obligations.TransportFailureEndsRun := by
  refine ⟨fun s ha hr => ?_, fun s ha hr => ?_, fun s hr => ⟨fun ha => ?_, fun ha => ?_⟩⟩
  · obtain ⟨hstream, hstop, hpos, -⟩ := readFailed_onward s
    exact ⟨_, exec_read_of_failure ha, takeFatal_status _, readFailed_phase_of_running hr, takeFatal_window _,
      readFailed_trace_of_running hr, hpos, hstream, hstop, takeFatal_meas _, takeFatal_cand _⟩
  · exact ⟨_, exec_flush_of_failure ha, takeFatal_status _, flushFailed_phase_of_running hr,
      flushFailed_trace_of_running hr, takeFatal_pos _, takeFatal_stream _, takeFatal_rxq _, takeFatal_stopreq _,
      takeFatal_meas _, takeFatal_cand _⟩
  · exact ⟨_, exec_read_of_failure ha, takeFatal_status _, readFailed_outside hr⟩
  · exact ⟨_, exec_flush_of_failure ha, takeFatal_status _, flushFailed_outside hr⟩

/-! The stopped states (R145). -/

/-- CTL.start has no effect but in IDLE (R156). -/
theorem ctlStart_of_not_idle {s : State} (h : s.phase ≠ .idle) : ctlStart s = s :=
  if_neg fun ha => h ((atOp_iff s .idle).1 ha).1

/-- In a stopped state the core's move changes nothing. -/
theorem coreStep_of_stopped {s t : State} (hs : s.phase = .stoppedOk ∨ s.phase = .stoppedErr)
    (h : coreStep s = .next t) : t = s := by
  cases (coreStep_of_wait (fetch_of_stopped hs)).symm.trans h
  rfl

/-- In a stopped state an input but CTL.reset reaches RXQ or the latch, or nothing (R145, R20). -/
theorem applyInput_of_stopped {i : Input} {s : State} (hs : s.phase = .stoppedOk ∨ s.phase = .stoppedErr)
    (hi : i ≠ .reset) : ∃ n b, (i ≠ .stop → b = s.stopreq) ∧ applyInput i s = { s with rxq := n, stopreq := b } := by
  cases i with
  | start => exact ⟨_, _, fun _ => rfl, ctlStart_of_not_idle (by rcases hs with h | h <;> simp [h])⟩
  | stop => exact ⟨_, _, fun h => absurd rfl h, rfl⟩
  | reset => exact absurd rfl hi
  | arrive n => exact ⟨_, _, fun _ => rfl, rfl⟩
  | pass => exact ⟨_, _, fun _ => rfl, rfl⟩

/-- All that a step from a stopped state can change, short of reset. -/
theorem step_of_stopped {s t : State} (hs : s.phase = .stoppedOk ∨ s.phase = .stoppedErr)
    (hi : s.inputs.head? ≠ some .reset) (h : step s = .next t) :
    ∃ is n b, (s.inputs.head? ≠ some .stop → b = s.stopreq) ∧ t = { s with inputs := is, rxq := n, stopreq := b } := by
  rcases step_cases h with ⟨-, hc⟩ | ⟨is, -, hc⟩ | ⟨i, is, he, -, rfl⟩
  · exact ⟨_, _, _, fun _ => rfl, coreStep_of_stopped hs hc⟩
  · exact ⟨_, _, _, fun _ => rfl, coreStep_of_stopped (s := { s with inputs := is }) hs hc⟩
  · obtain ⟨n, b, hb, ht⟩ := applyInput_of_stopped (i := i) (s := { s with inputs := is }) hs
      (by rintro rfl; simp [he] at hi)
    exact ⟨_, _, _, fun hne => hb (by rintro rfl; simp [he] at hne), ht⟩

/-- Settles O7: what a step can change here is the inputs to come, RXQ and, by CTL.stop, the latch. -/
theorem stoppedDoesNothingUntilReset : Obligations.StoppedDoesNothingUntilReset := by
  intro s t hs hi h
  obtain ⟨is, n, b, hb, rfl⟩ := step_of_stopped hs hi h
  exact ⟨rfl, rfl, rfl, rfl, rfl, rfl, rfl, rfl, rfl, rfl, rfl, rfl, rfl, rfl, hb⟩

/-! The way into STOPPED_OK (R137): no operation but ITER leads there. -/

theorem Quiet.stoppedOk {s t : State} (h : Quiet s t) (ht : t.phase = .stoppedOk) : s.phase = .stoppedOk := by
  have hr : s.phase.running = false := by rw [← h.running, ht]; rfl
  exact (h.outside hr).1.symm.trans ht

theorem readFailed_stoppedOk {s : State} (ht : (readFailed s).phase = .stoppedOk) : s.phase = .stoppedOk := by
  cases hr : s.phase.running with
  | true => simp [readFailed_phase_of_running hr] at ht
  | false => exact (readFailed_outside hr).1.symm.trans ht

theorem flushFailed_stoppedOk {s : State} (ht : (flushFailed s).phase = .stoppedOk) : s.phase = .stoppedOk := by
  cases hr : s.phase.running with
  | true => simp [flushFailed_phase_of_running hr] at ht
  | false => exact (flushFailed_outside hr).1.symm.trans ht

theorem readDone_stoppedOk {k : Fin 33} {s : State} (ht : (readDone k s).phase = .stoppedOk) :
    s.phase = .stoppedOk :=
  ((advance_quiet .read .locate _ rfl rfl).stoppedOk ht :)

theorem readState_stoppedOk {s : State} (ht : (readState s).phase = .stoppedOk) : s.phase = .stoppedOk := by
  rcases readState_cases s with ⟨-, e⟩ | ⟨k, -, e⟩ <;> rw [e] at ht
  · exact readFailed_stoppedOk ht
  · exact readDone_stoppedOk ht

theorem flushState_stoppedOk {s : State} (ht : (flushState s).phase = .stoppedOk) : s.phase = .stoppedOk := by
  rcases flushState_cases s with ⟨-, e⟩ | ⟨late, -, e⟩ <;> rw [e] at ht
  · exact flushFailed_stoppedOk ht
  · exact ht

theorem diagState_stoppedOk {k : Status} {s : State} (ht : (diagState k s).phase = .stoppedOk) :
    s.phase = .stoppedOk := by
  rw [diagState, afterReport_eq] at ht
  split at ht <;> simp_all

theorem iterOn_stoppedOk {c : RawChunk} {s : State} (ht : (iterOn c s).phase = .stoppedOk) : s.phase = .stoppedOk := by
  have hq := stFrame_quiet c s
  unfold iterOn at ht
  cases hf : stFrame c s with
  | ok a u =>
    rw [hf] at hq ht
    exact hq.stoppedOk (diagState_stoppedOk (s := emitState a.2 u) (flushState_stoppedOk ht))
  | fail k i u =>
    rw [hf] at hq ht
    exact (hq.trans (takeFailure_quiet k i u)).stoppedOk (diagState_stoppedOk ht)

/-- The boundary ends the run only on a stop request. -/
theorem iterationBoundary_stoppedOk {s : State} (ht : (iterationBoundary s).phase = .stoppedOk) :
    s.stopreq = true := by
  cases hs : s.stopreq with
  | true => rfl
  | false => simp [boundary_go hs] at ht

/-- A pass ends STOPPED_OK only at the boundary that it starts at. -/
theorem iterState_stoppedOk {s : State} (ht : (iterState s).phase = .stoppedOk) : s.stopreq = true := by
  cases hs : s.stopreq with
  | true => rfl
  | false =>
    refine hs.symm.trans (iterationBoundary_stoppedOk ?_)
    cases hr : nextReadAnswer s with
    | failure => rw [iterState_of_failure hs hr] at ht; exact readFailed_stoppedOk ht
    | bytes k => rw [iterState_of_bytes hs hr] at ht; exact readDone_stoppedOk (iterOn_stoppedOk ht)

/-- The operation that leads to STOPPED_OK is ITER with a stop request pending. -/
theorem exec_stoppedOk {i : Instr} {s t : State} (h : exec i s = .next t) (ht : t.phase = .stoppedOk)
    (hs : s.phase ≠ .stoppedOk) : i = .iter ∧ s.stopreq = true := by
  by_cases hi : i ≠ .iter ∧ i ≠ .read ∧ i ≠ .emit ∧ i ≠ .diag ∧ i ≠ .flush
  · exact absurd ((exec_datapath_quiet h hi).stoppedOk ht) hs
  cases i with
  | iter => cases h; exact ⟨rfl, iterState_stoppedOk ht⟩
  | read => cases h; exact absurd (readState_stoppedOk ht) hs
  | flush => cases h; exact absurd (flushState_stoppedOk ht) hs
  | emit => obtain ⟨m, -, rfl⟩ := execEmit_next h; exact absurd ht hs
  | diag => obtain ⟨k, -, rfl⟩ := execDiag_next h; exact absurd (diagState_stoppedOk ht) hs
  | _ => simp at hi

/-- Everything a request can be. -/
theorem fetchRequest_cases (bs : List Byte) :
    fetchRequest bs = .wait ∨ (∃ i, decode bs = .ok i ∧ fetchRequest bs = .direct i) ∨
      ∃ e, decode bs = .error e ∧ fetchRequest bs = .reject e := by
  by_cases hb : bs = []
  · exact .inl (by rw [hb]; rfl)
  cases hd : decode bs with
  | ok i => exact .inr (.inl ⟨i, rfl, fetchRequest_of_ok hb hd⟩)
  | error e => exact .inr (.inr ⟨e, rfl, fetchRequest_of_error hb hd⟩)

theorem fetchStage_cases (p : Phase) : fetchStage p = .wait ∨ ∃ i, fetchStage p = .stage i := by
  cases p <;> simp [fetchStage]

/-- Everything the core can fetch, by the place of the sequencer. -/
theorem fetch_cases (s : State) :
    fetch s = .wait ∨ (s.seq = .boundary ∧ fetch s = .boundary) ∨ (∃ i, fetch s = .stage i) ∨
      (s.phase = .idle ∧ s.seq = .op ∧ fetch s = fetchRequest s.port) := by
  by_cases hstop : s.phase = .stoppedOk ∨ s.phase = .stoppedErr
  · exact .inl (fetch_of_stopped hstop)
  obtain ⟨hok, herr⟩ := not_or.1 hstop
  cases hq : s.seq with
  | boundary => exact .inr (.inl ⟨rfl, fetch_of_boundary hq hok herr⟩)
  | report => exact .inr (.inr (.inl ⟨_, fetch_of_report hq hok herr⟩))
  | op =>
    cases hr : s.phase.running with
    | true =>
      rw [fetch_of_running rfl hq hr]
      exact (fetchStage_cases s.phase).imp_right fun hstage => .inr (.inl hstage)
    | false =>
      have hp : s.phase = .idle := by cases hp : s.phase <;> simp_all [Phase.running]
      exact .inr (.inr (.inr ⟨hp, rfl, fetch_of_idle hp hq⟩))

/-- A direct request is taken in IDLE alone (log 1). -/
theorem fetch_direct {s : State} {i : Instr} (h : fetch s = .direct i) :
    s.phase = .idle ∧ s.seq = .op ∧ decode s.port = .ok i := by
  rcases fetch_cases s with e | ⟨-, e⟩ | ⟨_, e⟩ | ⟨hp, hq, e⟩
  case inr.inr.inr =>
    rcases fetchRequest_cases s.port with e' | ⟨j, hd, e'⟩ | ⟨_, -, e'⟩ <;> cases (e.trans e').symm.trans h
    exact ⟨hp, hq, hd⟩
  all_goals cases e.symm.trans h

theorem fetch_boundary {s : State} (h : fetch s = .boundary) : s.seq = .boundary := by
  rcases fetch_cases s with e | ⟨hq, -⟩ | ⟨_, e⟩ | ⟨-, -, e⟩
  case inr.inl => exact hq
  case inr.inr.inr =>
    rcases fetchRequest_cases s.port with e' | ⟨j, -, e'⟩ | ⟨_, -, e'⟩ <;> cases (e.trans e').symm.trans h
  all_goals cases e.symm.trans h

theorem coreStep_stoppedOk {s t : State} (h : coreStep s = .next t) (ht : t.phase = .stoppedOk)
    (hs : s.phase ≠ .stoppedOk) :
    s.stopreq = true ∧
      (s.seq = .boundary ∨ (s.phase = .idle ∧ s.seq = .op ∧ decode s.port = .ok .iter)) := by
  rcases coreStep_cases h with ⟨i, hf, hx⟩ | ⟨i, hf, hx⟩ | ⟨hf, rfl⟩ | ⟨-, rfl⟩
  · obtain ⟨rfl, -⟩ := exec_stoppedOk hx ht hs
    simpa using fetch_stage hf
  · obtain ⟨rfl, hstop⟩ := exec_stoppedOk (s := { s with port := [] }) hx ht hs
    exact ⟨hstop, .inr (fetch_direct hf)⟩
  · exact ⟨iterationBoundary_stoppedOk ht, .inl (fetch_boundary hf)⟩
  · exact absurd ht hs

theorem applyInput_stoppedOk {i : Input} {s : State} (ht : (applyInput i s).phase = .stoppedOk) :
    s.phase = .stoppedOk := by
  cases i with
  | start => simp only [applyInput, ctlStart] at ht; split at ht <;> exact ht
  | reset => cases ht
  | _ => exact ht

/-- Settles O6: of the core's moves only the boundary's and a direct ITER lead to STOPPED_OK, and no input does. -/
theorem stopTakenOnlyAtBoundary : Obligations.StopTakenOnlyAtBoundary := by
  intro s t h ht hs
  rcases step_cases h with ⟨-, hc⟩ | ⟨is, -, hc⟩ | ⟨i, is, -, -, rfl⟩
  · exact coreStep_stoppedOk hc ht hs
  · exact coreStep_stoppedOk (s := { s with inputs := is }) hc ht hs
  · exact absurd (applyInput_stoppedOk ht) hs

end Sys2Proof.Machine
end

section
/-! PROOFS, reset and start (70_reset_and_hazards). CTL.reset lands in any state (R155); CTL.start leaves IDLE for the
iteration boundary, and the run's first acts are the `STOPREQ` test and a READ (R156). -/

namespace Sys2Proof.Machine

/-- Settles O2: the step is `ctlReset`, which writes its values over whatever was there and leaves the rest alone. -/
theorem ctlResetFromAnyState : Obligations.CtlResetFromAnyState := by
  intro s is hi
  have hstep : step s = .next (ctlReset { s with inputs := is }) := step_of_input hi (by decide)
  have henv : SameEnvironment { s with inputs := is } (ctlReset { s with inputs := is }) :=
    ⟨rfl, rfl, rfl, rfl, rfl, rfl, rfl, rfl⟩
  exact ⟨_, hstep, rfl, rfl, rfl, rfl, rfl, rfl, rfl, rfl, rfl, rfl, rfl, rfl, henv⟩

/-- In IDLE CTL.start moves the sequencer to the iteration boundary and does nothing else (R156). -/
theorem ctlStart_of_idle {s : State} (hp : s.phase = .idle) (hq : s.seq = .op) :
    ctlStart s = { s with seq := .boundary } :=
  if_pos ((atOp_iff s .idle).2 ⟨hp, hq⟩)

/-- Settles O3: the state that CTL.start leaves stands at the boundary, which tests `STOPREQ` before any READ. -/
theorem ctlStartLeavesIdleOnly : Obligations.CtlStartLeavesIdleOnly := by
  refine ⟨fun s hp hq hi => ?_, fun s is hp hi => ?_⟩
  · have hstart : step s = .next { s with inputs := [], seq := .boundary } :=
      (step_of_input hi (by decide)).trans
        (congrArg Host.Outcome.next (ctlStart_of_idle (s := { s with inputs := [] }) hp hq))
    obtain ⟨u, htest, henv, -, -, -, -, -, -, -, -, hstop, hgo⟩ :=
      boundaryTakesStopRequest { s with inputs := [], seq := .boundary } rfl (by simp [hp]) (by simp [hp]) rfl
    refine ⟨_, hstart, rfl, fun hs => ⟨u, htest, hstop hs⟩, fun hs => ?_⟩
    obtain ⟨hphase, hseq, -, htrace⟩ := hgo hs
    exact ⟨u, htest, hphase, hseq, htrace, step_of_stage henv.inputs hphase hseq rfl rfl⟩
  · exact (step_of_input hi (by decide)).trans
      (congrArg Host.Outcome.next (ctlStart_of_not_idle (s := { s with inputs := is }) hp))

end Sys2Proof.Machine
end
